-- ==== Sys2Proof/Word.lean ====
section
/-! DEFINITION. The word types of the block: host registers and the PRNG are 16 bits wide
(30_encoding.md R101, 10_state.md R34), cells and display data 8 bits (R35, 20_memory.md R72),
neighbour counts 4 bits (10_state.md R36), transactions 20 bits (30_encoding.md R101). -/

namespace Sys2Proof

/-- A host register value or PRNG value: 16 bits (`REG_W` of 00_scope.md R8). -/
abbrev Word := BitVec 16

/-- A cell state or display byte: 8 bits. -/
abbrev Byte := BitVec 8

/-- A neighbour count: `CNT_W` = 4 bits (00_scope.md R8). -/
abbrev Count := BitVec 4

/-- A host transaction word `T` = `{RW, REG, DATA}`: 20 bits (30_encoding.md R101). -/
abbrev Transaction := BitVec 20

end Sys2Proof
end

