-- ==== Sys2Proof/Syntax.lean ====
section
/-! DEFINITION. The transaction kinds of spec/opcode_table.json, one constructor per row, in the
table's order (30_encoding.md R106–R111). A read's DATA field is don't-care (R101) and is no operand. -/

namespace Sys2Proof

/-- One host transaction. The operand `v` of a write is its DATA field, 16 bits, used as is (R102). -/
inductive Instr where
  /-- `RD CMD` (R271) -/
  | rdCmd
  /-- `RD STATUS` (R272) -/
  | rdStatus
  /-- `RD PRNG_STATE` (R273) -/
  | rdPrngState
  /-- `RD CELL_ADDR` (R274) -/
  | rdCellAddr
  /-- `RD CELL_DATA` (R275) -/
  | rdCellData
  /-- `RD COUNT_DATA` (R276) -/
  | rdCountData
  /-- `RD GEN_COUNT` (R277) -/
  | rdGenCount
  /-- `RD GEN_LIMIT` (R278) -/
  | rdGenLimit
  /-- `NOP`, OP = 0x0 (R240) -/
  | nop
  /-- `INIT`, OP = 0x1 (R160) -/
  | init
  /-- `CLEAR`, OP = 0x2 (R170) -/
  | clear
  /-- `EVOLVE`, OP = 0x3 (R200) -/
  | evolve
  /-- `RENDER`, OP = 0x4 (R181) -/
  | render
  /-- `RUN`, OP = 0x5 (R241) -/
  | run
  /-- `STOP`, OP = 0x6 (R244) -/
  | stop
  /-- `NEXT`, OP = 0x7 (R150) -/
  | next
  /-- `CLRERR`, OP = 0x8 (R245) -/
  | clrerr
  /-- `WR CELL_ADDR, v` (R280) -/
  | wrCellAddr (v : Word)
  /-- `WR CELL_DATA, v` (R281) -/
  | wrCellData (v : Word)
  /-- `WR GEN_LIMIT, v` (R282) -/
  | wrGenLimit (v : Word)
  /-- `WR STATUS, v`, ignored (R283) -/
  | wrStatus (v : Word)
  /-- `WR PRNG_STATE, v`, ignored (R283) -/
  | wrPrngState (v : Word)
  /-- `WR COUNT_DATA, v`, ignored (R283) -/
  | wrCountData (v : Word)
  /-- `WR GEN_COUNT, v`, ignored (R283) -/
  | wrGenCount (v : Word)
  /-- illegal command word, OP = 0x9 (R107) -/
  | illegalOp9
  /-- illegal command word, OP = 0xA..0xB; the operand is OP[0] (R107) -/
  | illegalOpAB (low : BitVec 1)
  /-- illegal command word, OP = 0xC..0xF; the operand is OP[1:0] (R107) -/
  | illegalOpCF (low : BitVec 2)
  /-- illegal command word with DATA[15:4] ≠ 0; the operand is DATA (R108) -/
  | illegalReserved (v : Word)
deriving DecidableEq, Repr

end Sys2Proof
end

