-- ==== Sys2Proof/WellFormed.lean ====
section
/-! DEFINITION. Which terms of `Instr` stand for a transaction word: the operand of the reserved-bits
row must have a reserved bit set (30_encoding.md R108); every other operand may take every value
(R102, R109, R110). -/

namespace Sys2Proof

/-- The reserved field `DATA[15:4]` of a command word (30_encoding.md R105). -/
def reservedField (v : Word) : BitVec 12 := v.extractLsb' 4 12

/-- An instruction that some transaction word encodes. The only ill-formed terms are
`illegalReserved v` with all reserved bits of `v` zero: such a `v` is a command word of R106 or R107. -/
def Instr.wellFormed : Instr → Bool
  | .rdCmd => true
  | .rdStatus => true
  | .rdPrngState => true
  | .rdCellAddr => true
  | .rdCellData => true
  | .rdCountData => true
  | .rdGenCount => true
  | .rdGenLimit => true
  | .nop => true
  | .init => true
  | .clear => true
  | .evolve => true
  | .render => true
  | .run => true
  | .stop => true
  | .next => true
  | .clrerr => true
  | .wrCellAddr _ => true
  | .wrCellData _ => true
  | .wrGenLimit _ => true
  | .wrStatus _ => true
  | .wrPrngState _ => true
  | .wrCountData _ => true
  | .wrGenCount _ => true
  | .illegalOp9 => true
  | .illegalOpAB _ => true
  | .illegalOpCF _ => true
  | .illegalReserved v => reservedField v != 0#12

end Sys2Proof
end

