-- ==== Sys2Proof/Decode.lean ====
section
/-! DEFINITION. The decoder of 30_encoding.md R111, total on 20-bit words, and the encoder written
from R101, R105 and R106. The opcode table of spec/opcode_table.json stands at the end as data. -/

namespace Sys2Proof

/-! ## The fields of a transaction word (R101) -/

/-- RW, bit 19: 1 = write. -/
def rwField (t : Transaction) : Bool := t.getLsbD 19

/-- REG, bits 18:16. -/
def regField (t : Transaction) : BitVec 3 := t.extractLsb' 16 3

/-- DATA, bits 15:0. -/
def dataField (t : Transaction) : Word := t.extractLsb' 0 16

/-- OP, bits 3:0 of a command word (R105). -/
def opField (d : Word) : BitVec 4 := d.extractLsb' 0 4

/-! ## Decoding -/

/-- A read (RW = 0): REG alone selects the kind and DATA is ignored (R111). REG has 3 bits, so the
last arm is REG = 7. -/
def decodeRead (reg : BitVec 3) : Instr :=
  match reg.toNat with
  | 0 => .rdCmd
  | 1 => .rdStatus
  | 2 => .rdPrngState
  | 3 => .rdCellAddr
  | 4 => .rdCellData
  | 5 => .rdCountData
  | 6 => .rdGenCount
  | _ => .rdGenLimit

/-- A command word (R105–R108). OP has 4 bits, so the last arm is OP = 0xC..0xF. -/
def decodeCommand (d : Word) : Instr :=
  if reservedField d != 0#12 then .illegalReserved d
  else
    match (opField d).toNat with
    | 0x0 => .nop
    | 0x1 => .init
    | 0x2 => .clear
    | 0x3 => .evolve
    | 0x4 => .render
    | 0x5 => .run
    | 0x6 => .stop
    | 0x7 => .next
    | 0x8 => .clrerr
    | 0x9 => .illegalOp9
    | 0xA => .illegalOpAB 0#1
    | 0xB => .illegalOpAB 1#1
    | _ => .illegalOpCF (d.extractLsb' 0 2)

/-- A write (RW = 1) of `d` to register REG (R111). The last arm is REG = 7. -/
def decodeWrite (reg : BitVec 3) (d : Word) : Instr :=
  match reg.toNat with
  | 0 => decodeCommand d
  | 1 => .wrStatus d
  | 2 => .wrPrngState d
  | 3 => .wrCellAddr d
  | 4 => .wrCellData d
  | 5 => .wrCountData d
  | 6 => .wrGenCount d
  | _ => .wrGenLimit d

/-- The decoder: a total function from any 20-bit word to a transaction kind (R111). -/
def decode (t : Transaction) : Instr :=
  if rwField t then decodeWrite (regField t) (dataField t) else decodeRead (regField t)

/-- Why a number is no transaction word. -/
inductive DecodeReject where
  /-- the number has a bit above bit 19: the host port has 20 lines (R101) -/
  | widerThan20Bits
deriving DecidableEq, Repr

/-- The decoder on any number: numbers that do not fit the 20-bit port are rejected by name. -/
def decodeNat (w : Nat) : Except DecodeReject Instr :=
  if w < 2 ^ 20 then .ok (decode (BitVec.ofNat 20 w)) else .error .widerThan20Bits

/-- The instruction the decoder reads from a word numbered as spec/opcode_table.json numbers it. The
format is one 20-bit word (R101), whatever width `nbits` says; a wider number is refused. -/
def decodeTableWord (_nbits w : Nat) : Option Instr :=
  match decodeNat w with
  | .ok i => some i
  | .error _ => none

/-! ## Encoding -/

/-- `T = {RW, REG, DATA}` (R101). -/
def transaction (rw : BitVec 1) (reg : BitVec 3) (d : Word) : Transaction := rw ++ reg ++ d

/-- A read of register `reg`; the assembler emits DATA = 0 (R102). -/
def readWord (reg : BitVec 3) : Transaction := transaction 0#1 reg 0#16

/-- A write of `d` to register `reg`. -/
def writeWord (reg : BitVec 3) (d : Word) : Transaction := transaction 1#1 reg d

/-- A CMD write of opcode `op` with the reserved bits zero (R105). -/
def commandWord (op : BitVec 4) : Transaction := writeWord 0#3 (0#12 ++ op)

/-- The transaction word of an instruction (R101, R105, R106). -/
def encode : Instr → Transaction
  | .rdCmd => readWord 0#3
  | .rdStatus => readWord 1#3
  | .rdPrngState => readWord 2#3
  | .rdCellAddr => readWord 3#3
  | .rdCellData => readWord 4#3
  | .rdCountData => readWord 5#3
  | .rdGenCount => readWord 6#3
  | .rdGenLimit => readWord 7#3
  | .nop => commandWord 0x0#4
  | .init => commandWord 0x1#4
  | .clear => commandWord 0x2#4
  | .evolve => commandWord 0x3#4
  | .render => commandWord 0x4#4
  | .run => commandWord 0x5#4
  | .stop => commandWord 0x6#4
  | .next => commandWord 0x7#4
  | .clrerr => commandWord 0x8#4
  | .wrCellAddr v => writeWord 3#3 v
  | .wrCellData v => writeWord 4#3 v
  | .wrGenLimit v => writeWord 7#3 v
  | .wrStatus v => writeWord 1#3 v
  | .wrPrngState v => writeWord 2#3 v
  | .wrCountData v => writeWord 5#3 v
  | .wrGenCount v => writeWord 6#3 v
  | .illegalOp9 => commandWord 0x9#4
  | .illegalOpAB low => commandWord (0b101#3 ++ low)
  | .illegalOpCF low => commandWord (0b11#2 ++ low)
  | .illegalReserved v => writeWord 0#3 v

/-! ## The opcode table -/

/-- One row of spec/opcode_table.json: a word `T` matches it when `T &&& mask = pattern` (R111). -/
structure TableRow where
  mnemonic : String
  pattern : Transaction
  mask : Transaction
deriving DecidableEq, Repr

/-- `T` matches the row (R111). -/
def TableRow.hits (r : TableRow) (t : Transaction) : Bool := t &&& r.mask == r.pattern

/-- The rows of spec/opcode_table.json, in table order, all but the last. -/
def exactRows : List TableRow :=
  [ ⟨"RD_CMD", 0x00000#20, 0xF0000#20⟩
  , ⟨"RD_STATUS", 0x10000#20, 0xF0000#20⟩
  , ⟨"RD_PRNG_STATE", 0x20000#20, 0xF0000#20⟩
  , ⟨"RD_CELL_ADDR", 0x30000#20, 0xF0000#20⟩
  , ⟨"RD_CELL_DATA", 0x40000#20, 0xF0000#20⟩
  , ⟨"RD_COUNT_DATA", 0x50000#20, 0xF0000#20⟩
  , ⟨"RD_GEN_COUNT", 0x60000#20, 0xF0000#20⟩
  , ⟨"RD_GEN_LIMIT", 0x70000#20, 0xF0000#20⟩
  , ⟨"NOP", 0x80000#20, 0xFFFFF#20⟩
  , ⟨"INIT", 0x80001#20, 0xFFFFF#20⟩
  , ⟨"CLEAR", 0x80002#20, 0xFFFFF#20⟩
  , ⟨"EVOLVE", 0x80003#20, 0xFFFFF#20⟩
  , ⟨"RENDER", 0x80004#20, 0xFFFFF#20⟩
  , ⟨"RUN", 0x80005#20, 0xFFFFF#20⟩
  , ⟨"STOP", 0x80006#20, 0xFFFFF#20⟩
  , ⟨"NEXT", 0x80007#20, 0xFFFFF#20⟩
  , ⟨"CLRERR", 0x80008#20, 0xFFFFF#20⟩ ]
  ++
  [ ⟨"WR_CELL_ADDR__v", 0xB0000#20, 0xF0000#20⟩
  , ⟨"WR_CELL_DATA__v", 0xC0000#20, 0xF0000#20⟩
  , ⟨"WR_GEN_LIMIT__v", 0xF0000#20, 0xF0000#20⟩
  , ⟨"WR_STATUS__v__ignored", 0x90000#20, 0xF0000#20⟩
  , ⟨"WR_PRNG_STATE__v__ignored", 0xA0000#20, 0xF0000#20⟩
  , ⟨"WR_COUNT_DATA__v__ignored", 0xD0000#20, 0xF0000#20⟩
  , ⟨"WR_GEN_COUNT__v__ignored", 0xE0000#20, 0xF0000#20⟩
  , ⟨"ILLEGAL_CMD__OP___0x9", 0x80009#20, 0xFFFFF#20⟩
  , ⟨"ILLEGAL_CMD__OP___0xA..0xB", 0x8000A#20, 0xFFFFE#20⟩
  , ⟨"ILLEGAL_CMD__OP___0xC..0xF", 0x8000C#20, 0xFFFFC#20⟩ ]

/-- The last row of the table: the catch-all for reserved bits, tried last (R111). -/
def catchAllRow : TableRow := ⟨"ILLEGAL_CMD__reserved_bits_set", 0x80000#20, 0xF0000#20⟩

/-- spec/opcode_table.json as data, in table order. -/
def opcodeTable : List TableRow := exactRows ++ [catchAllRow]

/-- The mnemonic of the opcode-table row an instruction stands for. -/
def Instr.mnemonic : Instr → String
  | .rdCmd => "RD_CMD"
  | .rdStatus => "RD_STATUS"
  | .rdPrngState => "RD_PRNG_STATE"
  | .rdCellAddr => "RD_CELL_ADDR"
  | .rdCellData => "RD_CELL_DATA"
  | .rdCountData => "RD_COUNT_DATA"
  | .rdGenCount => "RD_GEN_COUNT"
  | .rdGenLimit => "RD_GEN_LIMIT"
  | .nop => "NOP"
  | .init => "INIT"
  | .clear => "CLEAR"
  | .evolve => "EVOLVE"
  | .render => "RENDER"
  | .run => "RUN"
  | .stop => "STOP"
  | .next => "NEXT"
  | .clrerr => "CLRERR"
  | .wrCellAddr _ => "WR_CELL_ADDR__v"
  | .wrCellData _ => "WR_CELL_DATA__v"
  | .wrGenLimit _ => "WR_GEN_LIMIT__v"
  | .wrStatus _ => "WR_STATUS__v__ignored"
  | .wrPrngState _ => "WR_PRNG_STATE__v__ignored"
  | .wrCountData _ => "WR_COUNT_DATA__v__ignored"
  | .wrGenCount _ => "WR_GEN_COUNT__v__ignored"
  | .illegalOp9 => "ILLEGAL_CMD__OP___0x9"
  | .illegalOpAB _ => "ILLEGAL_CMD__OP___0xA..0xB"
  | .illegalOpCF _ => "ILLEGAL_CMD__OP___0xC..0xF"
  | .illegalReserved _ => "ILLEGAL_CMD__reserved_bits_set"

end Sys2Proof
end

