-- ==== Sys2Proof/Config.lean ====
section
/-! DEFINITION. The fixed parameters of 00_scope.md R8, the parameters the spec leaves OPEN, and the
free values of 93_implementation_defined.md. A constant declared `opaque` has no body: nothing can be
proved about its value, so a statement that mentions it holds for every value. -/

namespace Sys2Proof.Config

/-- `W`: grid columns (00_scope.md R8). -/
abbrev W : Nat := 80

/-- `H`: grid rows (00_scope.md R8). -/
abbrev H : Nat := 25

/-- `N = W·H` = 2000: cell count (00_scope.md R8). -/
abbrev N : Nat := W * H

/-- `NI = (W−2)·(H−2)` = 1794: interior cell count (00_scope.md R8). -/
abbrev NI : Nat := (W - 2) * (H - 2)

/-- `SEED` = 0xACE1 (00_scope.md R8). -/
abbrev SEED : Word := 0xACE1#16

/-- `DEAD` = 0x00 (00_scope.md R8). -/
abbrev DEAD : Byte := 0x00#8

/-- `ALIVE` = 0xFF (00_scope.md R8). -/
abbrev ALIVE : Byte := 0xFF#8

/-- `BIRTH_MOD` = 10 (00_scope.md R8). -/
abbrev BIRTH_MOD : Nat := 10

/-- `BIRTH_RES` = 1 (00_scope.md R8). -/
abbrev BIRTH_RES : Nat := 1

/-- `SPACE` = 0x20 (00_scope.md R8, decision D22; the code is the spec's general knowledge).
PRESUMED: log 12. -/
abbrev SPACE : Byte := 0x20#8

/-- `DISP_BYTES = 2·N` = 4000: display span in bytes (00_scope.md R8). -/
abbrev DISP_BYTES : Nat := 2 * N

/-- `DISP_BASE`: system address of the display region. OPEN (20_memory.md R77): no body. -/
opaque dispBase : Nat

/-- Free value: what the `n`-th read of PRNG_STATE, CELL_DATA or COUNT_DATA made while BUSY returns
(45_host_access.md R279, U1: any 16-bit value). DESIGN CHOICE in form: log 3. -/
opaque freeRead : Nat → Word

/-- Free value: the byte at display offset `off` after the `p`-th power-up and before the block
writes it (10_state.md R56, U2: each byte a draw). DESIGN CHOICE in form: log 4. -/
opaque powerUpByte : (p off : Nat) → Byte

end Sys2Proof.Config
end

