-- ==== Sys2Proof/Machine/State.lean ====
section
/-! DEFINITION. The state of the block (10_state.md R32), the display region it drives (R56), and the
model's own record of the outside world; the reset state (R58); and how a step may stop. -/

namespace Sys2Proof.Machine

/-- The pending operation `op` (10_state.md R52). -/
inductive Op where
  | none
  | init
  | clear
  | evolve
  | render
  | run
deriving DecidableEq, Repr

/-- The errors a host transaction can raise (60_exceptions.md R302). -/
inductive Error where
  /-- a CMD write that is no command word -/
  | illegalCmd
  /-- a write that is not allowed while BUSY = 1 -/
  | busy
  /-- a CELL_DATA write with CELL_ADDR ≥ N -/
  | range
  /-- a CELL_DATA write to a border cell -/
  | border
  /-- a CELL_DATA write of a value other than 0x0000 or 0x00FF -/
  | badValue
deriving DecidableEq, Repr

/-- The grid store `G`: `N` cell states, index = col + row·W (10_state.md R35). -/
abbrev Grid := Vector Byte Config.N

/-- The neighbour-count buffer `C`: `N` counts (10_state.md R36). -/
abbrev Counts := Vector Count Config.N

/-- The bytes of the display region that the block has written since power-up, as (offset, byte)
pairs in strictly rising order of offset. A byte not listed still holds its power-up value (R56). -/
abbrev Memory := List Host.Cell

/-- One strobe of the display port: `disp_off`, 12 bits, and `disp_data`, 8 bits
(30_encoding.md R100); the event `DispW(off, b)` of 20_memory.md R72. -/
structure DispW where
  off : BitVec 12
  data : Byte
deriving DecidableEq, Repr

/-- What the outside world does next (10_state.md R30, 30_encoding.md R100). -/
inductive Input where
  /-- the host presents the transaction word `t` with h_valid = 1 (30_encoding.md R101) -/
  | host (t : Transaction)
  /-- no host transaction and no reset: the engine moves, if it has an enabled step (R30) -/
  | idle
  /-- `rst` is asserted long enough and released (70_reset_and_hazards.md R340). `presented`: the host
  transactions presented while rst = 1. `issued`: how many display writes of the operation in progress
  were issued before the reset, R342 (log 5) -/
  | reset (issued : Nat) (presented : List Transaction)
  /-- power is lost and returns, and the system resets the block before any transaction
  (60_exceptions.md R318, 70_reset_and_hazards.md R344; log 10). `issued`: how many display writes of the
  operation in progress were issued before the loss, which the spec leaves open (log 19) -/
  | powerCycle (issued : Nat)
deriving DecidableEq, Repr

/-- The state of the model. -/
structure State where
  /-- PRNG register `S` (10_state.md R34) -/
  S : Word
  /-- grid store `G` (R35) -/
  G : Grid
  /-- neighbour-count buffer `C` (R36) -/
  C : Counts
  /-- CELL_ADDR, REG 3 (R47) -/
  cellAddr : Word
  /-- GEN_COUNT, REG 6 (R50) -/
  genCount : Word
  /-- GEN_LIMIT, REG 7 (R51) -/
  genLimit : Word
  /-- STATUS.BUSY (R41) -/
  busy : Bool
  /-- STATUS.RUNNING (R42) -/
  running : Bool
  /-- STATUS.STOP_PEND (R43) -/
  stopPend : Bool
  /-- STATUS.ERR (R44) -/
  err : Bool
  /-- STATUS.ERRCODE (R45) -/
  errcode : BitVec 3
  /-- pending operation (R52) -/
  op : Op
  /-- iterations left of a bounded run (R53) -/
  runLeft : Word
  /-- the run is unbounded (R53) -/
  runInf : Bool
  /-- the display region `D`, outside the block (R56) -/
  display : Memory
  /-- every display write so far, newest first (20_memory.md R72, D40; log 6) -/
  dispTrace : List DispW
  /-- the values `h_rdata` has returned to the host, newest first (30_encoding.md R100; log 6) -/
  hRdata : List Word
  /-- what the outside world does next, in order (log 1) -/
  inputs : List Input
  /-- how many free values reads while BUSY have drawn (log 3) -/
  freeReads : Nat
  /-- how many times power has returned; indexes the display's free power-up contents (log 4) -/
  powerUps : Nat
deriving DecidableEq, Repr

/-- The state right after reset (10_state.md R58): the PRNG holds the seed, the grid is DEAD, everything
else is 0 and idle; the display has not been written, and the outside world has nothing to say yet. -/
def State.reset : State where
  S := Config.SEED
  G := Vector.replicate Config.N Config.DEAD
  C := Vector.replicate Config.N 0#4
  cellAddr := 0#16
  genCount := 0#16
  genLimit := 0#16
  busy := false
  running := false
  stopPend := false
  err := false
  errcode := 0#3
  op := .none
  runLeft := 0#16
  runInf := false
  display := []
  dispTrace := []
  hRdata := []
  inputs := []
  freeReads := 0
  powerUps := 0

/-- Why the machine stops. The block itself has no trap and no failing operation (60_exceptions.md
R300, R305). -/
inductive Fault where
  /-- Raised by `engineStep` when BUSY = 1 and no operation is pending: R30 enables the engine's step
  and no rule says what it does. No run from reset reaches it (R59 item 4). Safe: log 7. -/
  | engineWithoutOperation
deriving DecidableEq, Repr

/-- Why an instruction has no meaning. -/
inductive Refusal where
  /-- Raised by `exec` for an instruction that is not modelled yet; no arm uses it. Safe. -/
  | notModelled (mnemonic : String)
deriving DecidableEq, Repr

end Sys2Proof.Machine
end

