-- ==== Sys2Proof/Machine/Ops.lean ====
section
/-! DEFINITION. The named operations over the stores: grid geometry (00_scope.md R14), cells and
counts, the PRNG (40_prng.md), the display port (20_memory.md R72), errors (60_exceptions.md R301),
the answer of a read (45_host_access.md R270), and the host-step gate of every command that BUSY
excludes (60_exceptions.md R303). -/

namespace Sys2Proof.Machine

open Sys2Proof.Config

/-! ## Grid geometry (00_scope.md R14) -/

/-- `row(i) = i div W`. -/
def row (i : Nat) : Nat := i / W

/-- `col(i) = i mod W`. -/
def col (i : Nat) : Nat := i % W

/-- `idx(r, c) = c + r·W`. -/
def idx (r c : Nat) : Nat := c + r * W

/-- `border(i)`: the cell lies on the outermost ring. -/
def border (i : Nat) : Bool := row i == 0 || row i == H - 1 || col i == 0 || col i == W - 1

/-- `interior(i) = not border(i)`. -/
def interior (i : Nat) : Bool := !border i

/-- The eight neighbours of an interior cell in the order NW, N, NE, W, E, SW, S, SE
(00_scope.md R14, 43_evolver.md R209). An interior cell has row and column at least 1, so the
subtractions are exact. -/
def neighbours (i : Nat) : List Nat :=
  [ idx (row i - 1) (col i - 1), idx (row i - 1) (col i), idx (row i - 1) (col i + 1)
  , idx (row i) (col i - 1), idx (row i) (col i + 1)
  , idx (row i + 1) (col i - 1), idx (row i + 1) (col i), idx (row i + 1) (col i + 1) ]

/-! ## Cells and counts -/

/-- `G[i]`. Indexes `≥ N` name no cell and no rule reads one; the accessor gives DEAD there (log 15). -/
def cell (g : Grid) (i : Nat) : Byte := if h : i < N then g[i] else DEAD

/-- `C[i]`; 0 for an index `≥ N` (log 15). -/
def count (b : Counts) (i : Nat) : Count := if h : i < N then b[i] else 0#4

/-- `G[i] <- v`; nothing for an index `≥ N` (log 15). -/
def setCell (i : Nat) (v : Byte) (s : State) : State :=
  { s with G := if h : i < N then s.G.set i v h else s.G }

/-- `C[i] <- n`; nothing for an index `≥ N` (log 15). -/
def setCount (i : Nat) (n : Count) (s : State) : State :=
  { s with C := if h : i < N then s.C.set i n h else s.C }

/-! ## The PRNG (40_prng.md) -/

/-- The LFSR step (R140): feedback is the parity of bits 0, 2, 3 and 5, shifted into bit 15. -/
def lfsrNext (s : Word) : Word :=
  let fb : Bool := s.getLsbD 0 ^^ s.getLsbD 2 ^^ s.getLsbD 3 ^^ s.getLsbD 5
  BitVec.ofBool fb ++ s.extractLsb' 1 15

/-- The inverse step (R145). -/
def lfsrPrev (n : Word) : Word :=
  let b0 : Bool := n.getLsbD 15 ^^ n.getLsbD 1 ^^ n.getLsbD 2 ^^ n.getLsbD 4
  n.extractLsb' 0 15 ++ BitVec.ofBool b0

/-- `Draw()` (R142): the only primitive that writes `S`; the value drawn is the new `S` (R141). -/
def draw (s : State) : State := { s with S := lfsrNext s.S }

/-! ## The display port (20_memory.md R72) -/

/-- What the block has written at display offset `a`: nothing for an unlisted offset. -/
def Memory.read? : Memory → Nat → Option Byte
  | [], _ => none
  | (b, v) :: rest, a => if a = b then some v else Memory.read? rest a

/-- Write one byte, keeping the canonical form. No stored byte equals "not written", so no write
removes an entry. -/
def Memory.write : Memory → Nat → Byte → Memory
  | [], a, v => [(a, v)]
  | (b, w) :: rest, a, v =>
    if a < b then (a, v) :: (b, w) :: rest
    else if a = b then (a, v) :: rest
    else (b, w) :: Memory.write rest a v

/-- The canonical form: offsets strictly rising and inside the display region. -/
abbrev Memory.wf (m : Memory) : Prop :=
  m.Pairwise (fun p q => p.1 < q.1) ∧ ∀ p ∈ m, p.1 < DISP_BYTES

/-- The byte at display offset `off`: what the block wrote last, or the free power-up byte (R56). -/
def displayByte (s : State) (off : Nat) : Byte :=
  (Memory.read? s.display off).getD (powerUpByte s.powerUps off)

/-- The system address of display offset `off` (R72, R77). -/
def dispAddr (off : Nat) : Nat := dispBase + off

/-- `DispWrite(off, b)` (R72): `D[off] <- b`, and the event is recorded. -/
def dispWrite (s : State) (w : DispW) : State :=
  { s with display := Memory.write s.display w.off.toNat w.data, dispTrace := w :: s.dispTrace }

/-! ## The outside world -/

/-- The inputs left after the first one is taken (log 1). -/
def setInputs (rest : List Input) (s : State) : State := { s with inputs := rest }

/-! ## Errors (60_exceptions.md) -/

/-- ERRCODE of an error (R302). -/
def Error.code : Error → BitVec 3
  | .illegalCmd => 1#3
  | .busy => 2#3
  | .range => 3#3
  | .border => 4#3
  | .badValue => 5#3

/-- `raise Error(code)` (R301): the transaction has no other effect, and only the first error since
the last clear is recorded. The block has no trap: this stands where a processor would take an
exception (R300, R310). -/
def raiseError (e : Error) (s : State) : State :=
  if s.err = false then { s with err := true, errcode := e.code } else s

/-- CLRERR's effect (44_mainloop.md R245); it stands where a processor would return from an exception
(60_exceptions.md R311). -/
def clearError (s : State) : State := { s with err := false, errcode := 0#3 }

/-- A transaction that BUSY excludes: rejected with error BUSY while BUSY = 1, otherwise `act`
(60_exceptions.md R303, 10_state.md R41). -/
def unlessBusy (act : State → State) (s : State) : State :=
  if s.busy = true then raiseError .busy s else act s

/-! ## The answer of a read (45_host_access.md) -/

/-- A read returns `v` on `h_rdata` and changes no state of the block (R270). -/
def answer (v : Word) (s : State) : State := { s with hRdata := v :: s.hRdata }

/-- A read of a register that is unstable while BUSY: exact while BUSY = 0, an unspecified 16-bit
value while BUSY = 1 (R279). -/
def answerUnstable (v : Word) (s : State) : State :=
  if s.busy = true then
    { s with hRdata := freeRead s.freeReads :: s.hRdata, freeReads := s.freeReads + 1 }
  else answer v s

end Sys2Proof.Machine
end

