-- ==== Sys2Proof/Machine/Flags.lean ====
section
/-! DEFINITION. The STATUS register (10_state.md R39–R45, R55) and every update of its fields that a
rule names, apart from ERR and ERRCODE (Ops.lean, R301 and R245). -/

namespace Sys2Proof.Machine

/-- STATUS as read: `zext_16({ERRCODE, ERR, STOP_PEND, RUNNING, BUSY})`; bits 15:7 are hardwired to 0
(10_state.md R39, R40). -/
def statusWord (s : State) : Word :=
  0#9 ++ s.errcode ++ BitVec.ofBool s.err ++ BitVec.ofBool s.stopPend ++ BitVec.ofBool s.running
    ++ BitVec.ofBool s.busy

/-- A multi-step command is accepted: `op <- o ; BUSY <- 1` (41_initializer.md R160, R170,
42_renderer.md R181, 43_evolver.md R200). -/
def acceptOp (o : Op) (s : State) : State := { s with op := o, busy := true }

/-- RUN is accepted (44_mainloop.md R241): GEN_LIMIT is read once here. -/
def acceptRun (s : State) : State :=
  { s with
    op := .run, busy := true, running := true, stopPend := false
    runInf := s.genLimit == 0#16, runLeft := s.genLimit }

/-- An operation other than RUN completes: `op <- NONE ; BUSY <- 0` (R161, R171, R182, R201). -/
def finishOp (s : State) : State := { s with op := .none, busy := false }

/-- `end_run()` (44_mainloop.md R243). -/
def endRun (s : State) : State :=
  { s with op := .none, busy := false, running := false, stopPend := false }

/-- STOP's effect (44_mainloop.md R244): a request while RUNNING, nothing otherwise. -/
def requestStop (s : State) : State :=
  if s.running = true then { s with stopPend := true } else s

end Sys2Proof.Machine
end

