-- ==== Sys2Proof/Machine/Operands.lean ====
section
/-! DEFINITION. The operands of host transactions: what each readable register shows (10_state.md
R38–R51, 45_host_access.md R271–R278) and how a CELL_DATA write value is checked (R281). -/

namespace Sys2Proof.Machine

open Sys2Proof.Config

/-- CMD reads 0x0000 at all times (10_state.md R38). -/
def viewCmd (_ : State) : Word := 0x0000#16

/-- PRNG_STATE is a view of `S` (R46). -/
def viewPrngState (s : State) : Word := s.S

/-- CELL_DATA: `zext_16(G[CELL_ADDR])`, or 0x0000 when CELL_ADDR selects no cell (R48, R275). -/
def viewCellData (s : State) : Word :=
  if s.cellAddr.toNat < N then (cell s.G s.cellAddr.toNat).setWidth 16 else 0x0000#16

/-- COUNT_DATA: `zext_16(C[CELL_ADDR])`, or 0x0000 when CELL_ADDR selects no cell (R49, R276). -/
def viewCountData (s : State) : Word :=
  if s.cellAddr.toNat < N then (count s.C s.cellAddr.toNat).setWidth 16 else 0x0000#16

/-- The value the rules give for an exact read of register REG (10_state.md R37). -/
def viewReg (reg : BitVec 3) (s : State) : Word :=
  match reg.toNat with
  | 0 => viewCmd s
  | 1 => statusWord s
  | 2 => viewPrngState s
  | 3 => s.cellAddr
  | 4 => viewCellData s
  | 5 => viewCountData s
  | 6 => s.genCount
  | _ => s.genLimit

/-- The two legal CELL_DATA write values (30_encoding.md R110). -/
def legalCellValue (v : Word) : Bool := v == 0x0000#16 || v == 0x00FF#16

/-- A CELL_DATA write of `v` once BUSY is known to be 0: the checks RANGE, BORDER, BAD_VALUE in this
order, then `G[a] <- v[7:0]` (45_host_access.md R281, 60_exceptions.md R304). -/
def writeCellData (v : Word) (s : State) : State :=
  if N ≤ s.cellAddr.toNat then raiseError .range s
  else if border s.cellAddr.toNat = true then raiseError .border s
  else if legalCellValue v = false then raiseError .badValue s
  else setCell s.cellAddr.toNat (v.extractLsb' 0 8) s

end Sys2Proof.Machine
end

