-- ==== Sys2Proof/Machine/Commands.lean ====
section
/-! DEFINITION. The host steps of the nine commands (30_encoding.md R106). A multi-step command is only
accepted here; the engine performs it (Engine.lean). -/

namespace Sys2Proof.Machine

/-- NOP (44_mainloop.md R240): no effect, BUSY or not. -/
def execNop (s : State) : Host.Outcome State Fault Refusal := .next s

/-- INIT, acceptance (41_initializer.md R160). -/
def execInit (s : State) : Host.Outcome State Fault Refusal := .next (unlessBusy (acceptOp .init) s)

/-- CLEAR, acceptance (41_initializer.md R170). -/
def execClear (s : State) : Host.Outcome State Fault Refusal := .next (unlessBusy (acceptOp .clear) s)

/-- EVOLVE, acceptance (43_evolver.md R200). -/
def execEvolve (s : State) : Host.Outcome State Fault Refusal :=
  .next (unlessBusy (acceptOp .evolve) s)

/-- RENDER, acceptance (42_renderer.md R181). -/
def execRender (s : State) : Host.Outcome State Fault Refusal :=
  .next (unlessBusy (acceptOp .render) s)

/-- RUN, acceptance (44_mainloop.md R241). -/
def execRun (s : State) : Host.Outcome State Fault Refusal := .next (unlessBusy acceptRun s)

/-- STOP (44_mainloop.md R244): accepted at any time. -/
def execStop (s : State) : Host.Outcome State Fault Refusal := .next (requestStop s)

/-- NEXT (40_prng.md R150): one draw, complete at once. -/
def execNext (s : State) : Host.Outcome State Fault Refusal := .next (unlessBusy draw s)

/-- CLRERR (44_mainloop.md R245): accepted at any time. -/
def execClrerr (s : State) : Host.Outcome State Fault Refusal := .next (clearError s)

end Sys2Proof.Machine
end

