-- ==== Sys2Proof/Machine/Illegal.lean ====
section
/-! DEFINITION. The illegal command words (30_encoding.md R107, R108): each raises ILLEGAL_CMD, BUSY or
not (60_exceptions.md R304), and has no other effect. -/

namespace Sys2Proof.Machine

/-- OP = 0x9 (R107). -/
def execIllegalOp9 (s : State) : Host.Outcome State Fault Refusal := .next (raiseError .illegalCmd s)

/-- OP = 0xA..0xB (R107). -/
def execIllegalOpAB (_low : BitVec 1) (s : State) : Host.Outcome State Fault Refusal :=
  .next (raiseError .illegalCmd s)

/-- OP = 0xC..0xF (R107). -/
def execIllegalOpCF (_low : BitVec 2) (s : State) : Host.Outcome State Fault Refusal :=
  .next (raiseError .illegalCmd s)

/-- DATA[15:4] ≠ 0, whatever OP (R108). -/
def execIllegalReserved (_v : Word) (s : State) : Host.Outcome State Fault Refusal :=
  .next (raiseError .illegalCmd s)

end Sys2Proof.Machine
end

