-- ==== Sys2Proof/Machine/Reads.lean ====
section
/-! DEFINITION. The meanings of the eight read transactions (45_host_access.md R270–R279). -/

namespace Sys2Proof.Machine

/-- `RD CMD` (R271). -/
def execRdCmd (s : State) : Host.Outcome State Fault Refusal := .next (answer (viewCmd s) s)

/-- `RD STATUS` (R272): exact at all times. -/
def execRdStatus (s : State) : Host.Outcome State Fault Refusal := .next (answer (statusWord s) s)

/-- `RD PRNG_STATE` (R273): unspecified while BUSY. Reading does not draw. -/
def execRdPrngState (s : State) : Host.Outcome State Fault Refusal :=
  .next (answerUnstable (viewPrngState s) s)

/-- `RD CELL_ADDR` (R274): exact at all times. -/
def execRdCellAddr (s : State) : Host.Outcome State Fault Refusal := .next (answer s.cellAddr s)

/-- `RD CELL_DATA` (R275): unspecified while BUSY. -/
def execRdCellData (s : State) : Host.Outcome State Fault Refusal :=
  .next (answerUnstable (viewCellData s) s)

/-- `RD COUNT_DATA` (R276): unspecified while BUSY. -/
def execRdCountData (s : State) : Host.Outcome State Fault Refusal :=
  .next (answerUnstable (viewCountData s) s)

/-- `RD GEN_COUNT` (R277): exact at all times. -/
def execRdGenCount (s : State) : Host.Outcome State Fault Refusal := .next (answer s.genCount s)

/-- `RD GEN_LIMIT` (R278): exact at all times. -/
def execRdGenLimit (s : State) : Host.Outcome State Fault Refusal := .next (answer s.genLimit s)

end Sys2Proof.Machine
end

