-- ==== Sys2Proof/Machine/Writes.lean ====
section
/-! DEFINITION. The meanings of the register writes other than CMD (45_host_access.md R280–R283). -/

namespace Sys2Proof.Machine

/-- `WR CELL_ADDR, v` (R280): every value is stored, also values `≥ N`. -/
def execWrCellAddr (v : Word) (s : State) : Host.Outcome State Fault Refusal :=
  .next (unlessBusy (fun s => { s with cellAddr := v }) s)

/-- `WR CELL_DATA, v` (R281): the BUSY check comes first. -/
def execWrCellData (v : Word) (s : State) : Host.Outcome State Fault Refusal :=
  .next (unlessBusy (writeCellData v) s)

/-- `WR GEN_LIMIT, v` (R282). -/
def execWrGenLimit (v : Word) (s : State) : Host.Outcome State Fault Refusal :=
  .next (unlessBusy (fun s => { s with genLimit := v }) s)

/-- `WR STATUS, v`: ignored (R283). -/
def execWrStatus (_v : Word) (s : State) : Host.Outcome State Fault Refusal := .next s

/-- `WR PRNG_STATE, v`: ignored, no reseeding (R283, 30_encoding.md R109). -/
def execWrPrngState (_v : Word) (s : State) : Host.Outcome State Fault Refusal := .next s

/-- `WR COUNT_DATA, v`: ignored (R283). -/
def execWrCountData (_v : Word) (s : State) : Host.Outcome State Fault Refusal := .next s

/-- `WR GEN_COUNT, v`: ignored (R283). -/
def execWrGenCount (_v : Word) (s : State) : Host.Outcome State Fault Refusal := .next s

end Sys2Proof.Machine
end

