-- ==== Sys2Proof/Machine/Dispatch.lean ====
section
/-! DEFINITION. One arm per constructor of `Instr`: the meaning of each host transaction. -/

namespace Sys2Proof.Machine

def exec (i : Instr) (s : State) : Host.Outcome State Fault Refusal :=
  match i with
  | .rdCmd => Sys2Proof.Machine.execRdCmd s
  | .rdStatus => Sys2Proof.Machine.execRdStatus s
  | .rdPrngState => Sys2Proof.Machine.execRdPrngState s
  | .rdCellAddr => Sys2Proof.Machine.execRdCellAddr s
  | .rdCellData => Sys2Proof.Machine.execRdCellData s
  | .rdCountData => Sys2Proof.Machine.execRdCountData s
  | .rdGenCount => Sys2Proof.Machine.execRdGenCount s
  | .rdGenLimit => Sys2Proof.Machine.execRdGenLimit s
  | .nop => Sys2Proof.Machine.execNop s
  | .init => Sys2Proof.Machine.execInit s
  | .clear => Sys2Proof.Machine.execClear s
  | .evolve => Sys2Proof.Machine.execEvolve s
  | .render => Sys2Proof.Machine.execRender s
  | .run => Sys2Proof.Machine.execRun s
  | .stop => Sys2Proof.Machine.execStop s
  | .next => Sys2Proof.Machine.execNext s
  | .clrerr => Sys2Proof.Machine.execClrerr s
  | .wrCellAddr v => Sys2Proof.Machine.execWrCellAddr v s
  | .wrCellData v => Sys2Proof.Machine.execWrCellData v s
  | .wrGenLimit v => Sys2Proof.Machine.execWrGenLimit v s
  | .wrStatus v => Sys2Proof.Machine.execWrStatus v s
  | .wrPrngState v => Sys2Proof.Machine.execWrPrngState v s
  | .wrCountData v => Sys2Proof.Machine.execWrCountData v s
  | .wrGenCount v => Sys2Proof.Machine.execWrGenCount v s
  | .illegalOp9 => Sys2Proof.Machine.execIllegalOp9 s
  | .illegalOpAB low => Sys2Proof.Machine.execIllegalOpAB low s
  | .illegalOpCF low => Sys2Proof.Machine.execIllegalOpCF low s
  | .illegalReserved v => Sys2Proof.Machine.execIllegalReserved v s

end Sys2Proof.Machine
end

