-- ==== Sys2Proof/Machine/Engine.lean ====
section
/-! DEFINITION. The engine's operations, each one atomic step (10_state.md R52): perform INIT
(41_initializer.md R161), CLEAR (R171), EVOLVE (43_evolver.md R201), RENDER (42_renderer.md R182) and
the RUN iteration (44_mainloop.md R242). -/

namespace Sys2Proof.Machine

open Sys2Proof.Config

/-! ## GEN_COUNT -/

/-- `GEN_COUNT <- 0` (41_initializer.md R161, R171). -/
def zeroGenCount (s : State) : State := { s with genCount := 0#16 }

/-- `GEN_COUNT <- GEN_COUNT + 1` modulo 2^16 (43_evolver.md R208). -/
def bumpGenCount (s : State) : State := { s with genCount := s.genCount + 1#16 }

/-! ## INIT and CLEAR -/

/-- `birth(v) := (v mod 10) == 1` on the draw's full unsigned value (41_initializer.md R163). -/
def birth (v : Word) : Bool := v.toNat % BIRTH_MOD == BIRTH_RES

/-- INIT at an interior cell: one draw decides the cell (R161, R163). -/
def seedCell (i : Nat) (s : State) : State :=
  let t := draw s
  setCell i (if birth t.S = true then ALIVE else DEAD) t

/-- INIT at cell `i`: a border cell is forced DEAD without a draw; the count becomes 0 (R161, R164). -/
def initCell (s : State) (i : Nat) : State :=
  setCount i 0#4 (if interior i = true then seedCell i s else setCell i DEAD s)

/-- The loop of INIT, in ascending index order (R161, R162). -/
@[irreducible] def initCells (s : State) : State := (List.range N).foldl initCell s

/-- perform INIT (R161). -/
def performInit (s : State) : State := finishOp (zeroGenCount (initCells s))

/-- CLEAR at cell `i` (R171). -/
def clearCell (s : State) (i : Nat) : State := setCount i 0#4 (setCell i DEAD s)

/-- The loop of CLEAR (R171). -/
@[irreducible] def clearCells (s : State) : State := (List.range N).foldl clearCell s

/-- perform CLEAR (R171). -/
def performClear (s : State) : State := finishOp (zeroGenCount (clearCells s))

/-! ## EVOLVE -/

/-- `ncount(G, i)`: how many of the eight neighbours are ALIVE (43_evolver.md R202). -/
def ncount (g : Grid) (i : Nat) : Nat := (neighbours i).countP (fun j => cell g j == ALIVE)

/-- The cell rule B3/S23 (R204). -/
def rule (state : Byte) (n : Nat) : Byte :=
  if state = ALIVE then (if n = 2 ∨ n = 3 then ALIVE else DEAD)
  else if n = 3 then ALIVE else DEAD

/-- Count phase at cell `i`: reads `G` only, writes `C` only, interior cells only (R201, R202). The
count, at most 8, fits the 4-bit entry (R203). -/
def countCell (s : State) (i : Nat) : State :=
  if interior i = true then setCount i (BitVec.ofNat 4 (ncount s.G i)) s else s

/-- Apply phase at cell `i`: reads `G[i]` and `C[i]`, writes `G[i]`, interior cells only (R201, R204). -/
def applyCell (s : State) (i : Nat) : State :=
  if interior i = true then setCell i (rule (cell s.G i) (count s.C i).toNat) s else s

/-- The count phase over every cell (R201). -/
@[irreducible] def countPhase (s : State) : State := (List.range N).foldl countCell s

/-- The apply phase over every cell (R201). -/
@[irreducible] def applyPhase (s : State) : State := (List.range N).foldl applyCell s

/-- The EVOLVE body: count, then apply (R206), then GEN_COUNT + 1 modulo 2^16 (R208). -/
def evolveBody (s : State) : State := bumpGenCount (applyPhase (countPhase s))

/-- perform EVOLVE (R201). -/
def performEvolve (s : State) : State := finishOp (evolveBody s)

/-! ## RENDER -/

/-- The two display writes of cell `i`: the character at `2i`, the attribute at `2i + 1`
(42_renderer.md R180, 20_memory.md R71). -/
def renderCell (g : Grid) (i : Nat) : List DispW :=
  [⟨BitVec.ofNat 12 (2 * i), SPACE⟩, ⟨BitVec.ofNat 12 (2 * i + 1), cell g i⟩]

/-- The `2·N` display writes of a RENDER of grid `g`, in the order issued (42_renderer.md R182). -/
@[irreducible] def renderWrites (g : Grid) : List DispW := (List.range N).flatMap (renderCell g)

/-- Issue display writes, first of the list first. -/
def dispWrites (ws : List DispW) (s : State) : State := ws.foldl dispWrite s

/-- The RENDER body: the display writes of R182. -/
def renderBody (s : State) : State := dispWrites (renderWrites s.G) s

/-- perform RENDER (R182). -/
def performRender (s : State) : State := finishOp (renderBody s)

/-! ## RUN -/

/-- The count of a bounded run goes down by one, and the run ends at 0; an unbounded run goes on
(44_mainloop.md R242). -/
def countIteration (s : State) : State :=
  if s.runInf = true then s
  else if s.runLeft - 1#16 = 0#16 then endRun { s with runLeft := 0#16 }
  else { s with runLeft := s.runLeft - 1#16 }

/-- perform RUN-step (44_mainloop.md R242): a pending STOP ends the run; otherwise one iteration,
render before evolve. -/
def performRunStep (s : State) : State :=
  if s.stopPend = true then endRun s else countIteration (evolveBody (renderBody s))

/-! ## The engine's step -/

/-- One engine step (10_state.md R30, R52), enabled exactly when BUSY = 1. While BUSY = 0 the engine
does nothing. BUSY = 1 with no operation pending is the model's one fault (log 7). -/
def engineStep (s : State) : Host.Outcome State Fault Refusal :=
  if s.busy = false then .next s
  else
    match s.op with
    | .none => .fault .engineWithoutOperation
    | .init => .next (performInit s)
    | .clear => .next (performClear s)
    | .evolve => .next (performEvolve s)
    | .render => .next (performRender s)
    | .run => .next (performRunStep s)

end Sys2Proof.Machine
end

