-- ==== Sys2Proof/Machine/Reset.lean ====
section
/-! DEFINITION. Reset (70_reset_and_hazards.md R340–R342) and the return of power (R344). -/

namespace Sys2Proof.Machine

open Sys2Proof.Config

/-- Every piece of the block's own state takes its reset value (R341, 10_state.md R58). The display,
the record of its writes, what the host has read, and what the outside world does next are not the
block's: reset does not change them (R56). -/
def resetBlock (s : State) : State :=
  { State.reset with
    display := s.display, dispTrace := s.dispTrace, hRdata := s.hRdata, inputs := s.inputs
    freeReads := s.freeReads, powerUps := s.powerUps }

/-- The display writes the operation in progress would issue (R342): those of a RENDER or of a RUN
iteration; the other operations issue none. -/
def pendingWrites (s : State) : List DispW :=
  match s.op with
  | .render => renderWrites s.G
  | .run => renderWrites s.G
  | .none => []
  | .init => []
  | .clear => []
  | .evolve => []

/-- The operation in progress is cut short after its first `issued` display writes, which stand (R342).
While BUSY = 0 there is nothing to cut short. -/
def interrupt (issued : Nat) (s : State) : State :=
  dispWrites (if s.busy = true then (pendingWrites s).take issued else []) s

/-- A reset: the first `issued` display writes of the operation in progress stand, the operation never
completes, and the block takes its reset values (R341, R342). A RUN whose STOP is pending counts as an
operation in progress (DEDUCED: log 5). -/
def hardReset (issued : Nat) (s : State) : State := resetBlock (interrupt issued s)

/-- Power is lost and returns, then reset, in one step (log 10): the block takes its reset values and the
display holds arbitrary bytes (R344, R56). The spec is silent on which display writes of an interrupted
RENDER or RUN iteration were issued before the loss (R342 speaks of reset only): the model records any
prefix of them, `issued` of the input. DESIGN CHOICE: log 19. -/
def powerUp (issued : Nat) (s : State) : State :=
  { hardReset issued s with display := [], powerUps := s.powerUps + 1 }

end Sys2Proof.Machine
end

