-- ==== Sys2Proof/Machine/Step.lean ====
section
/-! DEFINITION. One step of the model: the next input decides which agent moves (10_state.md R30,
60_exceptions.md R309). -/

namespace Sys2Proof.Machine

/-- One step. With no input left the engine moves if it has an enabled step (70_reset_and_hazards.md
R353, log 14) and the block stays as it is otherwise (60_exceptions.md R318). -/
def step (s : State) : Host.Outcome State Fault Refusal :=
  match s.inputs with
  | [] => engineStep s
  | .idle :: rest => engineStep (setInputs rest s)
  | .host t :: rest => exec (decode t) (setInputs rest s)
  | .reset issued _ :: rest => .next (hardReset issued (setInputs rest s))
  | .powerCycle issued :: rest => .next (powerUp issued (setInputs rest s))

/-- `s` with the transaction word `w` presented on the host port at the next step (log 2). The port has
20 lines (30_encoding.md R101), so `nbits` adds nothing. -/
def State.withFetchWord (s : State) (_nbits w : Nat) : State :=
  { s with inputs := .host (BitVec.ofNat 20 w) :: s.inputs }

end Sys2Proof.Machine
end

