-- ==== Sys2Proof/Machine/Fsm.lean ====
section
/-! DEFINITION. The reference FSM of the Evolver (43_evolver.md R209): the neighbour-count accumulator
and the cell-rule sequencing, one row of R209's table per step. It is the engine micro-state of
10_state.md R54, which the transaction-level machine omits; it stands here as a cycle-level design
whose results must equal `performEvolve` (R209). -/

namespace Sys2Proof.Machine

open Sys2Proof.Config

/-- The states of R209's table. -/
inductive FsmPhase where
  | idle
  | cntStart
  | cntAcc
  | cntStore
  | aplStart
  | apl
  | done
deriving DecidableEq, Repr

/-- The micro-state (10_state.md R54): phase, cell iterator `i`, neighbour iterator `k`, and the 4-bit
accumulator `acc` (R203). -/
structure Fsm where
  phase : FsmPhase
  i : Nat
  k : Nat
  acc : Count
deriving DecidableEq, Repr

/-- `NB`: the index offsets of the neighbours NW, N, NE, W, E, SW, S, SE for W = 80 (R209). -/
def neighbourOffsets : List Int := [-81, -80, -79, -1, 1, 79, 80, 81]

/-- The cell read in E_CNT_ACC: `i + NB[k]` (R209). -/
def fsmReadIndex (i k : Nat) : Nat := ((i : Int) + neighbourOffsets.getD k 0).toNat

/-- The first interior cell, `idx(1, 1)`. -/
def firstInterior : Nat := idx 1 1

/-- The last interior cell, `idx(H−2, W−2)`. -/
def lastInterior : Nat := idx (H - 2) (W - 2)

/-- `next_interior(i)`: `i + 1` within a row, and from `idx(r, W−2)` to `idx(r+1, 1)` (R209). -/
def nextInterior (i : Nat) : Nat := if col i = W - 2 then idx (row i + 1) 1 else i + 1

/-- One cycle of the reference FSM: one row of R209's table. -/
def fsmStep : Fsm × State → Fsm × State
  | (f, s) =>
    match f.phase with
    | .idle => if s.op = .evolve then ({ f with phase := .cntStart }, s) else (f, s)
    | .cntStart => (⟨.cntAcc, firstInterior, 0, 0#4⟩, s)
    | .cntAcc =>
      let acc := if cell s.G (fsmReadIndex f.i f.k) = ALIVE then f.acc + 1#4 else f.acc
      (⟨if f.k + 1 < 8 then .cntAcc else .cntStore, f.i, f.k + 1, acc⟩, s)
    | .cntStore =>
      let n := nextInterior f.i
      (⟨if lastInterior < n then .aplStart else .cntAcc, n, 0, 0#4⟩, setCount f.i f.acc s)
    | .aplStart => ({ f with phase := .apl, i := firstInterior }, s)
    | .apl =>
      let n := nextInterior f.i
      ({ f with phase := if lastInterior < n then .done else .apl, i := n },
        setCell f.i (rule (cell s.G f.i) (count s.C f.i).toNat) s)
    | .done => ({ f with phase := .idle }, finishOp (bumpGenCount s))

/-- `n` cycles of the reference FSM. -/
@[irreducible] def fsmRun (n : Nat) (fs : Fsm × State) : Fsm × State := fsmStep^[n] fs

end Sys2Proof.Machine
end

