-- ==== Sys2Proof/Machine/HostProgram.lean ====
section
/-! DEFINITION. The host's assembler of 30_encoding.md: the text of a transaction (R113) and the
expansions of the pseudo-instructions (R114). The host's control flow is not part of the block (R113):
WAIT, a polling loop, expands to as many `RD STATUS` as the host makes. -/

namespace Sys2Proof.Machine

/-- One line of a host program, without the comment (R113). The illegal command words have no command
mnemonic and are written as `WR CMD`. Immediates are in decimal. -/
def asmLine : Instr → String
  | .rdCmd => "RD CMD"
  | .rdStatus => "RD STATUS"
  | .rdPrngState => "RD PRNG_STATE"
  | .rdCellAddr => "RD CELL_ADDR"
  | .rdCellData => "RD CELL_DATA"
  | .rdCountData => "RD COUNT_DATA"
  | .rdGenCount => "RD GEN_COUNT"
  | .rdGenLimit => "RD GEN_LIMIT"
  | .nop => "NOP"
  | .init => "INIT"
  | .clear => "CLEAR"
  | .evolve => "EVOLVE"
  | .render => "RENDER"
  | .run => "RUN"
  | .stop => "STOP"
  | .next => "NEXT"
  | .clrerr => "CLRERR"
  | .wrCellAddr v => "WR CELL_ADDR, " ++ toString v.toNat
  | .wrCellData v => "WR CELL_DATA, " ++ toString v.toNat
  | .wrGenLimit v => "WR GEN_LIMIT, " ++ toString v.toNat
  | .wrStatus v => "WR STATUS, " ++ toString v.toNat
  | .wrPrngState v => "WR PRNG_STATE, " ++ toString v.toNat
  | .wrCountData v => "WR COUNT_DATA, " ++ toString v.toNat
  | .wrGenCount v => "WR GEN_COUNT, " ++ toString v.toNat
  | .illegalOp9 => "WR CMD, 9"
  | .illegalOpAB low => "WR CMD, " ++ toString (10 + low.toNat)
  | .illegalOpCF low => "WR CMD, " ++ toString (12 + low.toNat)
  | .illegalReserved v => "WR CMD, " ++ toString v.toNat

/-- The pseudo-instructions (R114). `polls` is how many times the host's WAIT loop reads STATUS. -/
inductive Pseudo where
  | wait (polls : Nat)
  | setCell (r c : Nat) (alive : Bool)
  | getCell (r c : Nat)
  | getCount (r c : Nat)
  | draw
  | step (polls : Nat)
  | runN (n : Word)
deriving DecidableEq, Repr

/-- `WR CELL_ADDR, c + r·80` (R114). The immediate has 16 bits (R113) and R114 bounds neither `r` nor `c`:
an index above 65535 is taken modulo 2^16. DESIGN CHOICE: log 20. -/
def selectCell (r c : Nat) : Instr := .wrCellAddr (BitVec.ofNat 16 (idx r c))

/-- The expansion of a pseudo-instruction (R114). -/
def expand : Pseudo → List Instr
  | .wait polls => List.replicate polls .rdStatus
  | .setCell r c alive => [selectCell r c, .wrCellData (if alive = true then 0x00FF#16 else 0x0000#16)]
  | .getCell r c => [selectCell r c, .rdCellData]
  | .getCount r c => [selectCell r c, .rdCountData]
  | .draw => [.next, .rdPrngState]
  | .step polls => .evolve :: List.replicate polls .rdStatus
  | .runN n => [.wrGenLimit n, .run]

end Sys2Proof.Machine
end

