-- ==== Sys2Proof/Safety.lean ====
section
/-! DEFINITION. What counts as a good state and a safe run: the eight invariants of 10_state.md R59, and
the canonical form of the display memory. -/

namespace Sys2Proof.Machine

open Sys2Proof.Config

/-- The invariants every reachable state satisfies (10_state.md R59, items 1 to 8 in order), and the
display region's canonical form (20_memory.md R72, 42_renderer.md R180). -/
structure Inv (s : State) : Prop where
  /-- item 1: `S ≠ 0` -/
  prng : s.S ≠ 0#16
  /-- item 2: every cell is DEAD or ALIVE -/
  cells : ∀ i, i < N → cell s.G i = DEAD ∨ cell s.G i = ALIVE
  /-- item 2: every border cell is DEAD -/
  borderCells : ∀ i, i < N → border i = true → cell s.G i = DEAD
  /-- item 3: every count is at most 8 -/
  counts : ∀ i, i < N → (count s.C i).toNat ≤ 8
  /-- item 3: every border count is 0 -/
  borderCounts : ∀ i, i < N → border i = true → count s.C i = 0#4
  /-- item 4: `BUSY == 0 ⇔ op == NONE` -/
  busyOp : s.busy = false ↔ s.op = .none
  /-- item 5: `RUNNING == 1 ⇔ op == RUN` -/
  runningOp : s.running = true ↔ s.op = .run
  /-- item 6: `STOP_PEND == 1 ⇒ RUNNING == 1` -/
  stopRunning : s.stopPend = true → s.running = true
  /-- item 7: `ERR == 0 ⇒ ERRCODE == 0` -/
  noErr : s.err = false → s.errcode = 0#3
  /-- item 7: `ERR == 1 ⇒ ERRCODE ∈ 1..5` -/
  errSet : s.err = true → 1 ≤ s.errcode.toNat ∧ s.errcode.toNat ≤ 5
  /-- item 8: `RUNNING == 1 and run_inf == 0 ⇒ run_left ≥ 1` -/
  runLeft : s.running = true → s.runInf = false → 1 ≤ s.runLeft.toNat
  /-- display memory: rising offsets, all below DISP_BYTES -/
  display : Memory.wf s.display

/-- A safe state for `n` steps: no fault and no refusal stops the machine (60_exceptions.md R300,
R305). -/
def Safe (n : Nat) (s : State) : Prop := ∃ t, core.run n s = .next t

/-- One generation by the other way 43_evolver.md R207 names: the next states are written to a separate
buffer, and the buffer becomes the grid. The machine applies the rule in place (`performEvolve`). -/
@[irreducible] def bufferedGeneration (g : Grid) : Grid :=
  Vector.ofFn fun i => if interior i = true then rule (cell g i) (ncount g i) else cell g i

end Sys2Proof.Machine
end

