-- ==== Sys2Proof/Certificates/Slice0/Obligations.lean ====
section
/-! DEFINITION. The statements for the provers. Most results are full equations
`exec i s = .next { s with … }`: every field not named is unchanged, so each carries its own frame, and
each says that the instruction completes. -/

namespace Sys2Proof.Claims

open Sys2Proof.Machine Sys2Proof.Config

/-- The state after a transaction that raised `e` (60_exceptions.md R301): nothing but ERR and ERRCODE
changes, and the code of the first error since the last clear is kept. -/
def Rejected (e : Error) (s : State) : State :=
  { s with err := true, errcode := if s.err = false then e.code else s.errcode }

/-- What 41_initializer.md R160, R170, 42_renderer.md R181 and 43_evolver.md R200 have in common: word
`t` is instruction `i`; while BUSY = 0 it only marks `o` pending and sets BUSY; while BUSY = 1 it is
rejected with BUSY. -/
def StartsOperation (i : Instr) (t : Transaction) (o : Op) : Prop :=
  decode t = i ∧ ∀ s : State,
    (s.busy = false → exec i s = .next { s with op := o, busy := true }) ∧
    (s.busy = true → exec i s = .next (Rejected .busy s))

/-- `Σ over (dr, dc) ∈ {−1,0,1}² \ {(0,0)}` of "the neighbour is ALIVE" (43_evolver.md R202), over the
integers. -/
def neighbourSum (g : Grid) (i : Nat) : Nat :=
  (([-1, 0, 1] : List Int).map fun dr =>
    (([-1, 0, 1] : List Int).map fun dc =>
      if (dr, dc) ≠ (0, 0) ∧
        cell g (idx ((row i : Int) + dr).toNat ((col i : Int) + dc).toNat) = ALIVE then 1 else 0).sum).sum

/-- An illegal command word: OP 0x9..0xF or a reserved bit set (30_encoding.md R107, R108). -/
def illegalWord (d : Word) : Bool := d.toNat / 16 != 0 || 9 ≤ d.toNat % 16

/-- The transactions that BUSY excludes (60_exceptions.md R302, R303): CMD writes of INIT, CLEAR,
EVOLVE, RENDER, RUN and NEXT, and writes of CELL_ADDR, CELL_DATA and GEN_LIMIT. -/
def needsIdle (t : Transaction) : Bool :=
  rwField t && ((regField t == 0#3 && ((dataField t).toNat ∈ [1, 2, 3, 4, 5, 7] : Bool)) ||
    regField t == 3#3 || regField t == 4#3 || regField t == 7#3)

/-- The one error a transaction raises, if any, by the priority of 60_exceptions.md R304:
ILLEGAL_CMD, BUSY, RANGE, BORDER, BAD_VALUE. -/
def firstError (t : Transaction) (s : State) : Option Error :=
  if rwField t = true ∧ regField t = 0#3 ∧ illegalWord (dataField t) = true then some .illegalCmd
  else if needsIdle t = true ∧ s.busy = true then some .busy
  else if rwField t = true ∧ regField t = 4#3 then
    if N ≤ s.cellAddr.toNat then some .range
    else if border s.cellAddr.toNat = true then some .border
    else if dataField t ≠ 0x0000#16 ∧ dataField t ≠ 0x00FF#16 then some .badValue
    else none
  else none

/-- The `k`-th display write of a RENDER of grid `g`, counting from 0 (42_renderer.md R182). -/
def renderWrite (g : Grid) (k : Nat) : DispW :=
  ⟨BitVec.ofNat 12 k, if k % 2 = 0 then SPACE else cell g (k / 2)⟩

/-- The display writes of RENDERs of the first `n` generations from `g`, newest first. -/
def runTrace (g : Grid) : Nat → List DispW
  | 0 => []
  | n + 1 => (renderWrites (bufferedGeneration^[n] g)).reverse ++ runTrace g n

/-- `{ERRCODE, ERR, STOP_PEND, RUNNING, BUSY}` (10_state.md R39). -/
def statusBits (s : State) : BitVec 7 :=
  s.errcode ++ BitVec.ofBool s.err ++ BitVec.ofBool s.stopPend ++ BitVec.ofBool s.running ++
    BitVec.ofBool s.busy

/-- The ALIVE cells of `g` are exactly those in `l`. -/
def AliveExactly (g : Grid) (l : List Nat) : Prop :=
  ∀ i, i < N → cell g i = if i ∈ l then ALIVE else DEAD

/-- The engine moves in the step from `s`: no input is left, or the next one is idle (10_state.md R30). -/
def EngineMoves (s : State) : Prop := s.inputs = [] ∨ ∃ rest, s.inputs = .idle :: rest

/-- The step from `s` is a reset, or power returns. -/
def ResetMoves (s : State) : Prop :=
  (∃ k p rest, s.inputs = .reset k p :: rest) ∨ ∃ k rest, s.inputs = .powerCycle k :: rest

/-- The host presents instruction `i` in the step from `s`. -/
def HostIssues (i : Instr) (s : State) : Prop := ∃ t rest, s.inputs = .host t :: rest ∧ decode t = i

/-- The same state but for ERR, ERRCODE and what the host has read, with the model's counter of the free
values it has read (log 3). -/
def SameButErrors (s t : State) : Prop :=
  { s with err := false, errcode := 0#3, hRdata := [], freeReads := 0 } =
    { t with err := false, errcode := 0#3, hRdata := [], freeReads := 0 }

/-- The host reads PRNG_STATE, CELL_DATA or COUNT_DATA while BUSY = 1: an unspecified value
(45_host_access.md R279). -/
def ReadsUnstably (s : State) : Prop :=
  s.busy = true ∧
    (HostIssues .rdPrngState s ∨ HostIssues .rdCellData s ∨ HostIssues .rdCountData s)

/-- Every piece of the block's own state holds its reset value (10_state.md R58). -/
def BlockIsReset (t : State) : Prop :=
  { t with display := [], dispTrace := [], hRdata := [], inputs := [], freeReads := 0,
           powerUps := 0 } = State.reset

end Sys2Proof.Claims

open Sys2Proof Sys2Proof.Machine Sys2Proof.Config Sys2Proof.Claims

/-! ## Encoding -/

/-- Words written out from 30_encoding.md R101 and R105 decode to the instructions they stand for. The
words are those of R112, an inference the spec marks as its own, and one more per remaining family. -/
def Obligations.WrittenOutWordsDecode : Prop :=
  decode 0x10000#20 = .rdStatus ∧ decode 0x20000#20 = .rdPrngState ∧ decode 0x80001#20 = .init ∧
  decode 0x80003#20 = .evolve ∧ decode 0x80007#20 = .next ∧ decode 0xB00A4#20 = .wrCellAddr 164#16 ∧
  decode 0xC00FF#20 = .wrCellData 0x00FF#16 ∧ decode 0xF0002#20 = .wrGenLimit 2#16 ∧
  decode 0x80011#20 = .illegalReserved 0x0011#16 ∧ decode 0x90000#20 = .wrStatus 0#16 ∧
  decode 0x80009#20 = .illegalOp9 ∧ decode 0x8000F#20 = .illegalOpCF 3#2

/-- Decoding an encoded well-formed instruction gives it back, with every operand (R101, R105, R106). -/
def Obligations.DecodeOfEncodeIsIdentity : Prop :=
  ∀ i : Instr, i.wellFormed = true → decode (encode i) = i

/-- Encoding the decoded instruction gives the word back: whole for a write, with DATA cleared for a
read, whose DATA is don't-care and which the assembler emits as 0 (R101, R102). -/
def Obligations.EncodeOfDecodeRestoresTheWord : Prop :=
  ∀ t : Transaction,
    (rwField t = true → encode (decode t) = t) ∧
    (rwField t = false → encode (decode t) = t &&& 0xF0000#20)

/-- R111: the decoder is total and gives a well-formed instruction, the instruction of the first row of
the opcode table that the word matches, and loses no bit of a write; only the last row overlaps others,
and every word that does not match it matches exactly one row. -/
def Obligations.DecoderIsTheOpcodeTable : Prop :=
  ∀ t : Transaction,
    (decode t).wellFormed = true ∧ (rwField t = true → encode (decode t) = t) ∧
    (opcodeTable.find? fun r => r.hits t).map TableRow.mnemonic = some (decode t).mnemonic ∧
    exactRows.countP (fun r => r.hits t) ≤ 1 ∧
    (catchAllRow.hits t = false → opcodeTable.countP (fun r => r.hits t) = 1)

/-! ## The step -/

/-- A step runs the decoded instruction: when the host presents a word that decodes to `i`, the step is
`exec i` on the state with that input taken; so also for the word that `withFetchWord` presents (the
list of inputs is the model's form: log 1, log 2). -/
def Obligations.StepRunsThePresentedTransaction : Prop :=
  (∀ (s : State) (t : Transaction) (rest : List Input) (i : Instr),
    s.inputs = .host t :: rest → decode t = i → step s = exec i { s with inputs := rest }) ∧
  (∀ (s : State) (rest : List Input) (i : Instr), i.wellFormed = true →
    s.inputs = .host (encode i) :: rest → step s = exec i { s with inputs := rest }) ∧
  ∀ (s : State) (nbits w : Nat), w < 2 ^ 20 →
    decodeTableWord nbits w = some (decode (BitVec.ofNat 20 w)) ∧
    step (s.withFetchWord nbits w) = exec (decode (BitVec.ofNat 20 w)) s

/-- The engine's step (R30, R52): enabled exactly when BUSY = 1, and it then moves. An operation other than
RUN is over, with BUSY and `op` cleared; a RUN step without a pending STOP has rendered and evolved once,
and one with a STOP has ended the run. GEN_COUNT and the number of display writes tell the operations
apart; the whole effect of each is stated below. Without an input, or at an idle one, the step is the
engine's (the input list is the model's form: log 1, log 14). -/
def Obligations.EngineMovesExactlyWhileBusy : Prop :=
  ∀ s : State,
    (s.busy = false → engineStep s = .next s) ∧
    (s.busy = true → s.op ≠ .none → ∃ t, engineStep s = .next t ∧ t ≠ s ∧
      (s.op ≠ .run → t.op = .none ∧ t.busy = false) ∧
      (s.op = .init ∨ s.op = .clear → t.genCount = 0#16) ∧
      (s.op = .evolve → t.genCount = s.genCount + 1#16) ∧
      (s.op = .render → t.dispTrace.length = s.dispTrace.length + 4000) ∧
      (s.op = .run →
        if s.stopPend = true then
          t.op = .none ∧ t.busy = false ∧ t.genCount = s.genCount ∧ t.dispTrace = s.dispTrace
        else
          t.genCount = s.genCount + 1#16 ∧ t.dispTrace.length = s.dispTrace.length + 4000)) ∧
    (s.inputs = [] → step s = engineStep s) ∧
    ∀ rest, s.inputs = .idle :: rest → step s = engineStep { s with inputs := rest }

/-- Both orders of a host transaction and an engine step are admitted (60_exceptions.md R309;
92_eei_decisions.md D2), whatever the transaction and the pending operation: two lists of inputs give the
transaction's effect followed by the engine's, and the engine's followed by the transaction's. The last
two clauses are the spec's own pair (95_test_vectors.md HZ-1): from any idle state, EVOLVE right after
INIT is rejected with BUSY when the engine has not moved, and accepted when it has. That an order is a
list of inputs, and that an idle input or an empty list lets the engine move, is the model's form: log 1,
log 14. -/
def Obligations.BothOrdersOfHostAndEngineAreAdmitted : Prop :=
  (∀ (s : State) (w : Transaction), s.busy = true → s.op ≠ .none →
    (∃ u v, exec (decode w) { s with inputs := [] } = .next u ∧ engineStep u = .next v ∧
      core.run 2 { s with inputs := [.host w] } = .next v) ∧
    ∃ u v, engineStep { s with inputs := [] } = .next u ∧ exec (decode w) u = .next v ∧
      core.run 2 { s with inputs := [.idle, .host w] } = .next v) ∧
  ∀ s : State, s.busy = false →
    (∃ t, core.run 2 { s with inputs := [.host 0x80001#20, .host 0x80003#20] } = .next t ∧
      t.op = .init ∧ t.err = true) ∧
    (∃ t, core.run 3 { s with inputs := [.host 0x80001#20, .idle, .host 0x80003#20] } = .next t ∧
      t.op = .evolve ∧ t.err = s.err)

/-! ## Invariants -/

/-- The reset state meets the invariants of 10_state.md R59, an inference the spec marks as its own. -/
def Obligations.ResetStateMeetsTheInvariant : Prop := Inv State.reset

/-- Every step of every agent keeps the invariants of 10_state.md R59 (inference of the spec) and the
canonical form of the display memory. -/
def Obligations.EveryStepKeepsTheInvariant : Prop :=
  ∀ s t : State, Inv s → step s = .next t → Inv t

/-- From a state that meets the invariant no run stops: no transaction traps and no engine operation
fails, for any inputs (60_exceptions.md R300 and R305; R305 is an inference of the spec). -/
def Obligations.NoRunFromAnInvariantStateStops : Prop := ∀ (n : Nat) (s : State), Inv s → Safe n s

/-- Every display write ever recorded lies below DISP_BYTES, and every step keeps it so
(42_renderer.md R180, an inference the spec marks as its own). -/
def Obligations.DisplayWritesStayInsideTheRegion : Prop :=
  ∀ s t : State, (∀ w ∈ s.dispTrace, w.off.toNat < 4000) → step s = .next t →
    ∀ w ∈ t.dispTrace, w.off.toNat < 4000

/-! ## The PRNG -/

/-- R140: bit `k` of the result is bit `k+1`, bit 15 is the parity of bits 0, 2, 3 and 5, that is
`((s >> 1) | (fb << 15)) & 0xFFFF`. -/
def Obligations.LfsrShiftsTapParityIntoTheTopBit : Prop :=
  ∀ s : Word,
    (∀ k, k ≤ 14 → (lfsrNext s).getLsbD k = s.getLsbD (k + 1)) ∧
    (lfsrNext s).getLsbD 15 = (s.getLsbD 0 ^^ s.getLsbD 2 ^^ s.getLsbD 3 ^^ s.getLsbD 5) ∧
    lfsrNext s = (s >>> 1) |||
      ((s ^^^ (s >>> 2) ^^^ (s >>> 3) ^^^ (s >>> 5)) &&& 1#16) <<< 15

/-- The inverse step (40_prng.md R145, an inference the spec marks as its own). -/
def Obligations.LfsrPrevInvertsLfsrNext : Prop :=
  ∀ n : Word, lfsrPrev (lfsrNext n) = n ∧ lfsrNext (lfsrPrev n) = n

/-- Zero is a fixed point, the step is a bijection, and no other value steps to zero (40_prng.md R144,
an inference the spec marks as its own). -/
def Obligations.LfsrNeverStepsFromNonzeroToZero : Prop :=
  lfsrNext 0#16 = 0#16 ∧ Function.Bijective lfsrNext ∧ ∀ s : Word, s ≠ 0#16 → lfsrNext s ≠ 0#16

/-- From the seed the PRNG returns to the seed after exactly 65535 draws, and every non-zero value
occurs exactly once in each period (40_prng.md R146, an inference the spec marks as its own). -/
def Obligations.LfsrPeriodFromTheSeedIs65535 : Prop :=
  lfsrNext^[65535] SEED = SEED ∧
  (∀ k, 0 < k → k < 65535 → lfsrNext^[k] SEED ≠ SEED) ∧
  ∀ v : Word, v ≠ 0#16 → ∃! k, k < 65535 ∧ lfsrNext^[k + 1] SEED = v

/-- How often each residue mod 10 is drawn in one period (40_prng.md R147, an inference the spec marks
as its own): 1 to 5 are drawn 6554 times each, 0 and 6 to 9 are drawn 6553 times each. -/
def Obligations.ResiduesDrawnOverOnePeriod : Prop :=
  ∀ r, r < 10 →
    (List.range 65535).countP (fun k => (lfsrNext^[k + 1] SEED).toNat % 10 == r) =
      if 1 ≤ r ∧ r ≤ 5 then 6554 else 6553

/-- R150: NEXT draws once and leaves the result in PRNG_STATE, without BUSY; while BUSY it is rejected
and `S` is unchanged. -/
def Obligations.NextDrawsOnceUnlessBusy : Prop :=
  decode 0x80007#20 = .next ∧ ∀ s : State,
    (s.busy = false → exec .next s = .next { s with S := lfsrNext s.S } ∧
      viewPrngState { s with S := lfsrNext s.S } = lfsrNext s.S) ∧
    (s.busy = true → exec .next s = .next (Rejected .busy s))

/-- R143: only an accepted NEXT (one draw), the engine's INIT (1794 draws) and reset (the seed) change
`S`. -/
def Obligations.OnlyNextInitAndResetChangeThePrng : Prop :=
  ∀ s t : State, step s = .next t →
    t.S = s.S ∨
    (HostIssues .next s ∧ s.busy = false ∧ t.S = lfsrNext s.S) ∨
    (EngineMoves s ∧ s.busy = true ∧ s.op = .init ∧ t.S = lfsrNext^[1794] s.S) ∨
    (ResetMoves s ∧ t.S = SEED)

/-! ## Commands: acceptance and the commands that complete at once -/

/-- INIT, CLEAR, EVOLVE and RENDER: each is accepted by setting `op` and BUSY, or rejected with BUSY
(R160, R170, R200, R181). -/
def Obligations.MultiStepCommandsSetBusyOrAreRejected : Prop :=
  StartsOperation .init 0x80001#20 .init ∧ StartsOperation .clear 0x80002#20 .clear ∧
  StartsOperation .evolve 0x80003#20 .evolve ∧ StartsOperation .render 0x80004#20 .render

/-- R241: RUN reads GEN_LIMIT once and sets BUSY, RUNNING and the run's own count, or is rejected. -/
def Obligations.RunReadsGenLimitOnceAtAcceptance : Prop :=
  decode 0x80005#20 = .run ∧ ∀ s : State,
    (s.busy = false → exec .run s = .next { s with
      op := .run, busy := true, running := true, stopPend := false
      runInf := decide (s.genLimit = 0#16), runLeft := s.genLimit }) ∧
    (s.busy = true → exec .run s = .next (Rejected .busy s))

/-- NOP has no effect (R240), STOP sets STOP_PEND exactly when RUNNING (R244), CLRERR clears ERR and
ERRCODE (R245); each at any time, BUSY or not. -/
def Obligations.NopStopAndClrerrAreAlwaysAccepted : Prop :=
  decode 0x80000#20 = .nop ∧ decode 0x80006#20 = .stop ∧ decode 0x80008#20 = .clrerr ∧
  ∀ s : State,
    exec .nop s = .next s ∧
    (s.running = true → exec .stop s = .next { s with stopPend := true }) ∧
    (s.running = false → exec .stop s = .next s) ∧
    exec .clrerr s = .next { s with err := false, errcode := 0#3 }

/-! ## The engine's operations -/

/-- INIT (R161 to R164): the `k`-th draw, counting from 0, decides cell (1 + k div 78, 1 + k mod 78),
ALIVE exactly when the value mod 10 is 1; the border is DEAD; every count and GEN_COUNT become 0. -/
def Obligations.InitSeedsTheInteriorInRowMajorOrder : Prop :=
  ∀ s : State, s.busy = true → s.op = .init → ∃ (g : Grid) (b : Counts),
    engineStep s = .next { s with
      S := lfsrNext^[1794] s.S, G := g, C := b, genCount := 0#16, op := .none, busy := false } ∧
    (∀ k, k < 1794 → cell g (idx (1 + k / 78) (1 + k % 78)) =
      if (lfsrNext^[k + 1] s.S).toNat % 10 = 1 then ALIVE else DEAD) ∧
    (∀ i, i < N → border i = true → cell g i = DEAD) ∧
    ∀ i, i < N → count b i = 0#4

/-- CLEAR (R171): every cell DEAD, every count 0, GEN_COUNT 0. -/
def Obligations.ClearEmptiesTheGridAndTheCounts : Prop :=
  ∀ s : State, s.busy = true → s.op = .clear → ∃ (g : Grid) (b : Counts),
    engineStep s = .next { s with G := g, C := b, genCount := 0#16, op := .none, busy := false } ∧
    (∀ i, i < N → cell g i = DEAD) ∧ ∀ i, i < N → count b i = 0#4

/-- EVOLVE (R201, R202, R204, R205, R208): every interior count becomes the number of ALIVE neighbours
in the grid as it stood, every interior cell becomes what the rule gives for that count, the border is
not written, GEN_COUNT goes up by one modulo 2^16. -/
def Obligations.EvolveCountsThenAppliesTheCellRule : Prop :=
  ∀ s : State, s.busy = true → s.op = .evolve → ∃ (g : Grid) (b : Counts),
    engineStep s = .next { s with
      G := g, C := b, genCount := s.genCount + 1#16, op := .none, busy := false } ∧
    (∀ i, i < N → interior i = true →
      (count b i).toNat = neighbourSum s.G i ∧
      cell g i = if cell s.G i = ALIVE
        then (if neighbourSum s.G i = 2 ∨ neighbourSum s.G i = 3 then ALIVE else DEAD)
        else (if neighbourSum s.G i = 3 then ALIVE else DEAD)) ∧
    ∀ i, i < N → border i = true → cell g i = cell s.G i ∧ count b i = count s.C i

/-- The rule's table over its whole domain, DEAD and ALIVE against 0 to 8, and the equivalent form
`next = (n == 3) or (state == ALIVE and n == 2)` (R204). -/
def Obligations.CellRuleIsTheTable : Prop :=
  (List.range 9).map (rule DEAD) = [DEAD, DEAD, DEAD, ALIVE, DEAD, DEAD, DEAD, DEAD, DEAD] ∧
  (List.range 9).map (rule ALIVE) = [DEAD, DEAD, ALIVE, ALIVE, DEAD, DEAD, DEAD, DEAD, DEAD] ∧
  ∀ (b : Byte) (n : Nat), rule b n = ALIVE ↔ n = 3 ∨ (b = ALIVE ∧ n = 2)

/-- The in-place apply gives the same grid as a separate next-generation buffer (43_evolver.md R207, an
inference the spec marks as its own). -/
def Obligations.InPlaceApplyEqualsASeparateBuffer : Prop :=
  ∀ s : State, s.busy = true → s.op = .evolve →
    ∃ t, engineStep s = .next t ∧ t.G = bufferedGeneration s.G

/-- The order of the cells inside each phase does not matter (43_evolver.md R210, an inference the spec
marks as its own). -/
def Obligations.PhaseResultsDoNotDependOnCellOrder : Prop :=
  ∀ (s : State) (l : List Nat), l.Perm (List.range N) →
    l.foldl countCell s = countPhase s ∧ l.foldl applyCell s = applyPhase s

/-- The reference FSM of 43_evolver.md R209 meets the atomic EVOLVE: from E_CNT_START it comes to
E_IDLE with the result of the engine's step. The number of cycles, 17943, is that of
70_reset_and_hazards.md R352, which calls it not normative. -/
def Obligations.ReferenceFsmPerformsTheAtomicEvolve : Prop :=
  ∀ (s : State) (f : Fsm), s.busy = true → s.op = .evolve → f.phase = .cntStart →
    ∃ (t : State) (f' : Fsm), engineStep s = .next t ∧ fsmRun 17943 (f, s) = (f', t) ∧ f'.phase = .idle

/-- A 2×2 block inside the interior is unchanged by a generation (43_evolver.md R214.1, an inference the
spec marks as its own). -/
def Obligations.BlockIsAStillLife : Prop :=
  ∀ (s : State) (r c : Nat), s.busy = true → s.op = .evolve →
    1 ≤ r → r + 1 ≤ H - 2 → 1 ≤ c → c + 1 ≤ W - 2 →
    AliveExactly s.G [idx r c, idx r (c + 1), idx (r + 1) c, idx (r + 1) (c + 1)] →
    ∃ t, engineStep s = .next t ∧ t.G = s.G

/-- A blinker with its centre in rows 2..H−3 and columns 2..W−3 turns vertical after one generation and
horizontal again after two (43_evolver.md R214.2, an inference the spec marks as its own). -/
def Obligations.BlinkerHasPeriodTwo : Prop :=
  ∀ (s : State) (r c : Nat), s.busy = true → s.op = .evolve →
    2 ≤ r → r ≤ H - 3 → 2 ≤ c → c ≤ W - 3 →
    AliveExactly s.G [idx r (c - 1), idx r c, idx r (c + 1)] →
    ∃ t u, engineStep s = .next t ∧
      AliveExactly t.G [idx (r - 1) c, idx r c, idx (r + 1) c] ∧
      engineStep { t with op := .evolve, busy := true } = .next u ∧ u.G = s.G

/-- An interior ALIVE cell without ALIVE neighbours dies, and an interior DEAD cell with exactly three
is born (43_evolver.md R214.3 and R214.4, an inference the spec marks as its own). -/
def Obligations.IsolatedCellDiesAndThreeNeighboursGiveBirth : Prop :=
  ∀ (s : State) (i : Nat), s.busy = true → s.op = .evolve → i < N → interior i = true →
    ∃ t, engineStep s = .next t ∧
      (cell s.G i = ALIVE → neighbourSum s.G i = 0 → cell t.G i = DEAD) ∧
      (cell s.G i = DEAD → neighbourSum s.G i = 3 → cell t.G i = ALIVE)

/-- RENDER (R182): exactly 4000 display writes in ascending offset order, SPACE at `2i` and `G[i]` at
`2i + 1`; the display region holds them and is otherwise as before; besides the display and the record of
its writes only BUSY and `op` change. -/
def Obligations.RenderIssuesTheWritesInOrder : Prop :=
  ∀ s : State, s.busy = true → s.op = .render → ∃ (d : Memory),
    engineStep s = .next { s with
      display := d
      dispTrace := ((List.range 4000).map (renderWrite s.G)).reverse ++ s.dispTrace
      op := .none, busy := false } ∧
    ∀ off, displayByte { s with display := d } off =
      if off < 4000 then (renderWrite s.G off).data else displayByte s off

/-- After a RENDER the display shows the grid: `D[2i] = 0x20`, `D[2i+1] = G[i]`, and no other byte is
touched (42_renderer.md R184, an inference the spec marks as its own). -/
def Obligations.RenderedDisplayEqualsTheGrid : Prop :=
  ∀ s : State, s.busy = true → s.op = .render → ∃ t, engineStep s = .next t ∧
    (∀ i, i < N → displayByte t (2 * i) = SPACE ∧ displayByte t (2 * i + 1) = cell s.G i) ∧
    ∀ off, 4000 ≤ off → displayByte t off = displayByte s off

/-- One RUN step (R242): a pending STOP ends the run at once with nothing rendered or evolved;
otherwise a RENDER, then an EVOLVE, and a bounded run counts down and ends at 0; the end of a run clears
`op`, BUSY, RUNNING and STOP_PEND (R243). The premise is item 8 of 10_state.md R59, which every step keeps
(EveryStepKeepsTheInvariant): a bounded run has iterations left. -/
def Obligations.RunStepRendersThenEvolves : Prop :=
  ∀ s : State, s.busy = true → s.op = .run → (s.runInf = false → 1 ≤ s.runLeft.toNat) →
    (s.stopPend = true → engineStep s = .next { s with
      op := .none, busy := false, running := false, stopPend := false }) ∧
    (s.stopPend = false → ∃ r e,
      engineStep { s with op := .render } = .next r ∧
      engineStep { r with op := .evolve, busy := true } = .next e ∧
      engineStep s = .next (
        if s.runInf = true then { e with op := .run, busy := true }
        else if s.runLeft - 1#16 = 0#16 then
          { e with op := .none, busy := false, running := false, stopPend := false, runLeft := 0#16 }
        else { e with op := .run, busy := true, runLeft := s.runLeft - 1#16 }))

/-- A bounded run (R243; the clause on what the display shows is an inference of the spec): RUN with
GEN_LIMIT = L > 0 is BUSY for L engine steps and then over; the grid is L generations on, GEN_COUNT has
grown by L modulo 2^16, 4000·L writes were issued and the display shows generation L − 1. The word RUN is
the only input, and the silent world lets the engine move (the model's form: log 1, log 14). -/
def Obligations.BoundedRunPerformsGenLimitIterations : Prop :=
  ∀ s : State, s.busy = false → s.genLimit ≠ 0#16 → s.inputs = [.host 0x80005#20] →
    (∀ k, k < s.genLimit.toNat → ∃ t, core.run (1 + k) s = .next t ∧ t.busy = true) ∧
    ∃ t, core.run (1 + s.genLimit.toNat) s = .next t ∧
      t.busy = false ∧ t.running = false ∧ t.stopPend = false ∧ t.op = .none ∧
      t.G = bufferedGeneration^[s.genLimit.toNat] s.G ∧
      t.genCount = s.genCount + s.genLimit ∧ t.genLimit = s.genLimit ∧ t.S = s.S ∧
      t.cellAddr = s.cellAddr ∧ t.err = s.err ∧ t.errcode = s.errcode ∧ t.hRdata = s.hRdata ∧
      t.dispTrace = runTrace s.G s.genLimit.toNat ++ s.dispTrace ∧
      ∀ i, i < N → displayByte t (2 * i) = SPACE ∧
        displayByte t (2 * i + 1) = cell (bufferedGeneration^[s.genLimit.toNat - 1] s.G) i

/-- An unbounded run never ends by itself and renders every generation in turn (44_mainloop.md R247, an
inference the spec marks as its own; R241). The word RUN is the only input, and the silent world lets the
engine move (the model's form: log 1, log 14). -/
def Obligations.UnboundedRunRendersEveryGeneration : Prop :=
  ∀ (s : State) (n : Nat), s.busy = false → s.genLimit = 0#16 → s.inputs = [.host 0x80005#20] →
    ∃ t, core.run (1 + n) s = .next t ∧ t.busy = true ∧ t.running = true ∧
      t.G = bufferedGeneration^[n] s.G ∧ t.genCount = s.genCount + BitVec.ofNat 16 n ∧
      t.dispTrace = runTrace s.G n ++ s.dispTrace

/-- A STOP accepted during a run ends it at the next engine step, with no further iteration (R243,
R244): STATUS loses BUSY, RUNNING and STOP_PEND and nothing else has changed. -/
def Obligations.StopEndsTheRunAtTheNextEngineStep : Prop :=
  ∀ s : State, s.busy = true → s.running = true → s.op = .run →
    ∃ t, exec .stop s = .next t ∧ statusWord t = statusWord s ||| 0x0004#16 ∧
      engineStep t = .next { s with
        op := .none, busy := false, running := false, stopPend := false }

/-- Progress (70_reset_and_hazards.md R353): from an invariant state in which the outside world is
silent, every pending operation completes, unless it is an unbounded run without a STOP. -/
def Obligations.PendingOperationsComplete : Prop :=
  ∀ s : State, Inv s → s.inputs = [] → (s.op = .run → s.runInf = false ∨ s.stopPend = true) →
    ∃ n t, n ≤ 65535 ∧ core.run n s = .next t ∧ t.busy = false

/-! ## Reads -/

/-- R39, R40: the layout of STATUS; bits 15:7 read 0. -/
def Obligations.StatusWordLayout : Prop :=
  ∀ s : State,
    (statusWord s).getLsbD 0 = s.busy ∧ (statusWord s).getLsbD 1 = s.running ∧
    (statusWord s).getLsbD 2 = s.stopPend ∧ (statusWord s).getLsbD 3 = s.err ∧
    (statusWord s).extractLsb' 4 3 = s.errcode ∧
    ∀ k, 7 ≤ k → (statusWord s).getLsbD k = false

/-- RD CMD, STATUS, CELL_ADDR, GEN_COUNT and GEN_LIMIT are exact at all times, BUSY or not, and change
no state of the block (R271, R272, R274, R277, R278). -/
def Obligations.ExactReadsAtAllTimes : Prop :=
  decode 0x00000#20 = .rdCmd ∧ decode 0x10000#20 = .rdStatus ∧ decode 0x30000#20 = .rdCellAddr ∧
  decode 0x60000#20 = .rdGenCount ∧ decode 0x70000#20 = .rdGenLimit ∧
  ∀ s : State,
    exec .rdCmd s = .next { s with hRdata := 0x0000#16 :: s.hRdata } ∧
    exec .rdStatus s = .next { s with hRdata := (statusBits s).setWidth 16 :: s.hRdata } ∧
    exec .rdCellAddr s = .next { s with hRdata := s.cellAddr :: s.hRdata } ∧
    exec .rdGenCount s = .next { s with hRdata := s.genCount :: s.hRdata } ∧
    exec .rdGenLimit s = .next { s with hRdata := s.genLimit :: s.hRdata }

/-- RD PRNG_STATE, CELL_DATA and COUNT_DATA while BUSY = 0 (R273, R275, R276): `S`; the selected cell
or count zero-extended, or 0x0000 when CELL_ADDR selects no cell. -/
def Obligations.PrngCellAndCountReadsWhileIdle : Prop :=
  decode 0x20000#20 = .rdPrngState ∧ decode 0x40000#20 = .rdCellData ∧
  decode 0x50000#20 = .rdCountData ∧
  ∀ s : State, s.busy = false →
    exec .rdPrngState s = .next { s with hRdata := s.S :: s.hRdata } ∧
    (∀ h : s.cellAddr.toNat < N,
      exec .rdCellData s = .next { s with hRdata := s.G[s.cellAddr.toNat].setWidth 16 :: s.hRdata } ∧
      exec .rdCountData s = .next { s with hRdata := s.C[s.cellAddr.toNat].setWidth 16 :: s.hRdata }) ∧
    (N ≤ s.cellAddr.toNat →
      exec .rdCellData s = .next { s with hRdata := 0x0000#16 :: s.hRdata } ∧
      exec .rdCountData s = .next { s with hRdata := 0x0000#16 :: s.hRdata })

/-- RD PRNG_STATE, CELL_DATA and COUNT_DATA while BUSY = 1 complete and return some value, of which
nothing is said (R279; the free value is the model's form: log 3); nothing else changes. -/
def Obligations.UnstableReadsWhileBusyStillComplete : Prop :=
  ∀ s : State, s.busy = true → ∀ i ∈ [Instr.rdPrngState, .rdCellData, .rdCountData],
    ∃ v, exec i s = .next { s with hRdata := v :: s.hRdata, freeReads := s.freeReads + 1 }

/-- R270: a read of any register, whatever its DATA, is accepted, raises no error, returns one 16-bit
value and changes no state of the block; while BUSY = 0 the value is the register's exact one. -/
def Obligations.ReadsChangeNoStateOfTheBlock : Prop :=
  ∀ (s : State) (t : Transaction), rwField t = false →
    decode t = decode (t &&& 0xF0000#20) ∧
    ∃ v n, exec (decode t) s = .next { s with hRdata := v :: s.hRdata, freeReads := n } ∧
      (s.busy = false → v = viewReg (regField t) s ∧ n = s.freeReads)

/-! ## Writes -/

/-- WR CELL_ADDR and WR GEN_LIMIT store any value, or are rejected with BUSY (R280, R282). -/
def Obligations.AddressAndLimitWritesStoreOrAreRejected : Prop :=
  ∀ (s : State) (v : Word),
    decode (0xB0000#20 ||| v.setWidth 20) = .wrCellAddr v ∧
    decode (0xF0000#20 ||| v.setWidth 20) = .wrGenLimit v ∧
    (s.busy = false → exec (.wrCellAddr v) s = .next { s with cellAddr := v } ∧
      exec (.wrGenLimit v) s = .next { s with genLimit := v }) ∧
    (s.busy = true → exec (.wrCellAddr v) s = .next (Rejected .busy s) ∧
      exec (.wrGenLimit v) s = .next (Rejected .busy s))

/-- WR CELL_DATA (R281): the checks BUSY, RANGE, BORDER, BAD_VALUE in this order, and otherwise one cell
of the grid is written with `v[7:0]`, every other cell, every count and everything else unchanged. -/
def Obligations.CellDataWriteChecksInOrderThenWritesOneCell : Prop :=
  ∀ (s : State) (v : Word),
    decode (0xC0000#20 ||| v.setWidth 20) = .wrCellData v ∧
    (s.busy = true → exec (.wrCellData v) s = .next (Rejected .busy s)) ∧
    (s.busy = false → N ≤ s.cellAddr.toNat → exec (.wrCellData v) s = .next (Rejected .range s)) ∧
    (s.busy = false → s.cellAddr.toNat < N → border s.cellAddr.toNat = true →
      exec (.wrCellData v) s = .next (Rejected .border s)) ∧
    (s.busy = false → s.cellAddr.toNat < N → border s.cellAddr.toNat = false →
      v ≠ 0x0000#16 → v ≠ 0x00FF#16 → exec (.wrCellData v) s = .next (Rejected .badValue s)) ∧
    (s.busy = false → s.cellAddr.toNat < N → border s.cellAddr.toNat = false →
      v = 0x0000#16 ∨ v = 0x00FF#16 → ∃ g : Grid,
        exec (.wrCellData v) s = .next { s with G := g } ∧
        ∀ i, i < N → cell g i =
          if i = s.cellAddr.toNat then (if v = 0x00FF#16 then ALIVE else DEAD) else cell s.G i)

/-- Writes to STATUS, PRNG_STATE, COUNT_DATA and GEN_COUNT have no effect, for every value, BUSY or not
(R109, R283). -/
def Obligations.WritesToReadOnlyRegistersAreIgnored : Prop :=
  ∀ (s : State) (v : Word),
    decode (0x90000#20 ||| v.setWidth 20) = .wrStatus v ∧
    decode (0xA0000#20 ||| v.setWidth 20) = .wrPrngState v ∧
    decode (0xD0000#20 ||| v.setWidth 20) = .wrCountData v ∧
    decode (0xE0000#20 ||| v.setWidth 20) = .wrGenCount v ∧
    exec (.wrStatus v) s = .next s ∧ exec (.wrPrngState v) s = .next s ∧
    exec (.wrCountData v) s = .next s ∧ exec (.wrGenCount v) s = .next s

/-! ## Errors -/

/-- A CMD write with OP 0x9..0xF or a reserved bit set raises ILLEGAL_CMD, BUSY or not, and has no other
effect (R107, R108); the four illegal instructions are these words. -/
def Obligations.IllegalCommandWordsRaiseIllegalCmd : Prop :=
  (∀ (s : State) (d : Word), illegalWord d = true →
    exec (decode (0x80000#20 ||| d.setWidth 20)) s = .next (Rejected .illegalCmd s)) ∧
  ∀ (s : State) (a : BitVec 1) (b : BitVec 2) (v : Word),
    exec .illegalOp9 s = .next (Rejected .illegalCmd s) ∧
    exec (.illegalOpAB a) s = .next (Rejected .illegalCmd s) ∧
    exec (.illegalOpCF b) s = .next (Rejected .illegalCmd s) ∧
    exec (.illegalReserved v) s = .next (Rejected .illegalCmd s)

/-- `raise Error` (R301) with the codes of R302: the first error since the last clear is recorded, a
later one changes nothing. -/
def Obligations.RaiseErrorKeepsTheFirstCode : Prop :=
  ∀ s : State,
    (s.err = true → ∀ e, raiseError e s = s) ∧
    (s.err = false →
      raiseError .illegalCmd s = { s with err := true, errcode := 1#3 } ∧
      raiseError .busy s = { s with err := true, errcode := 2#3 } ∧
      raiseError .range s = { s with err := true, errcode := 3#3 } ∧
      raiseError .border s = { s with err := true, errcode := 4#3 } ∧
      raiseError .badValue s = { s with err := true, errcode := 5#3 })

/-- R304 with R303: every transaction raises at most one error, the first that applies in the order
ILLEGAL_CMD, BUSY, RANGE, BORDER, BAD_VALUE; a transaction to which none applies raises none. -/
def Obligations.FirstApplicableErrorIsRaised : Prop :=
  ∀ (s : State) (t : Transaction),
    (∀ e, firstError t s = some e → exec (decode t) s = .next (Rejected e s)) ∧
    (firstError t s = none → ∃ u, exec (decode t) s = .next u ∧
      if decode t = .clrerr then u.err = false ∧ u.errcode = 0#3
      else u.err = s.err ∧ u.errcode = s.errcode)

/-- R307: CLRERR and reset are the only ways to clear ERR and ERRCODE; any other step leaves a recorded
error as it is. -/
def Obligations.OnlyClrerrAndResetClearTheError : Prop :=
  ∀ s t : State, step s = .next t → s.err = true →
    (t.err = true ∧ t.errcode = s.errcode) ∨
    (HostIssues .clrerr s ∧ t.err = false ∧ t.errcode = 0#3) ∨
    (ResetMoves s ∧ t.err = false ∧ t.errcode = 0#3)

/-- R306: a recorded error changes nothing of the block's later behaviour. From two states that differ at
most in ERR, ERRCODE and what the host has read, a step gives two such states again, so the statement
chains over any number of steps. In that step the host reads the same values in both, apart from bits 3
and 6:4 of STATUS, which show the error, and from reads whose value is unspecified while BUSY
(R279, log 3). -/
def Obligations.RecordedErrorDoesNotAffectTheBlock : Prop :=
  ∀ s s' t : State, SameButErrors s s' → step s = .next t →
    ∃ t' new new', step s' = .next t' ∧ SameButErrors t t' ∧
      t.hRdata = new ++ s.hRdata ∧ t'.hRdata = new' ++ s'.hRdata ∧ new.length = new'.length ∧
      (¬ ReadsUnstably s →
        new.map (fun v => v &&& 0xFF87#16) = new'.map (fun v => v &&& 0xFF87#16) ∧
        (¬ HostIssues .rdStatus s → new = new'))

/-! ## Who may change what -/

/-- While BUSY = 1 a host transaction other than STOP cannot change what the engine does next: after it,
the engine's step gives the same state but for ERR, ERRCODE and what the host has read
(10_state.md R41, 92_eei_decisions.md D10). -/
def Obligations.HostCannotDisturbAPendingOperation : Prop :=
  ∀ (s : State) (t : Transaction), s.busy = true → s.op ≠ .none → decode t ≠ .stop →
    ∃ u a b, exec (decode t) s = .next u ∧ engineStep s = .next a ∧ engineStep u = .next b ∧
      SameButErrors a b

/-- Only an accepted CELL_DATA write, which changes no cell but the selected one, an engine operation other
than RENDER, and reset change the grid (10_state.md R35, whose list the spec marks as its inference).
Accepted means that no error applies (R304). -/
def Obligations.OnlyCellWritesEngineAndResetChangeTheGrid : Prop :=
  ∀ s t : State, step s = .next t →
    t.G = s.G ∨
    ((∃ w v rest, s.inputs = .host w :: rest ∧ decode w = .wrCellData v ∧ firstError w s = none) ∧
      ∀ i, i < N → i ≠ s.cellAddr.toNat → cell t.G i = cell s.G i) ∨
    (EngineMoves s ∧ s.busy = true ∧ s.op ≠ .none ∧ s.op ≠ .render) ∨
    (ResetMoves s ∧ ∀ i, i < N → cell t.G i = DEAD)

/-- Only an engine step of RENDER or RUN, or a reset or a loss of power that interrupts one, issues display
writes (00_scope.md R13, 70_reset_and_hazards.md R342; that a loss of power may leave some recorded is the
model's choice: log 19). -/
def Obligations.OnlyRenderAndRunWriteTheDisplay : Prop :=
  ∀ s t : State, step s = .next t → t.dispTrace ≠ s.dispTrace →
    s.busy = true ∧ (s.op = .render ∨ s.op = .run) ∧ (EngineMoves s ∨ ResetMoves s)

/-! ## Reset and power -/

/-- R341 with the values of 10_state.md R58: a reset gives every piece of the block's state its reset
value, whatever was pending; transactions presented meanwhile are discarded, and a reset while idle
leaves the display alone. -/
def Obligations.ResetGivesTheResetValues : Prop :=
  ∀ (s : State) (k : Nat) (p : List Transaction) (rest : List Input),
    s.inputs = .reset k p :: rest →
    ∃ t, step s = .next t ∧ t.S = 0xACE1#16 ∧ (∀ i, i < N → cell t.G i = DEAD ∧ count t.C i = 0#4) ∧
      t.cellAddr = 0#16 ∧ t.genCount = 0#16 ∧ t.genLimit = 0#16 ∧ t.busy = false ∧ t.running = false ∧
      t.stopPend = false ∧ t.err = false ∧ t.errcode = 0#3 ∧ t.op = .none ∧ t.runLeft = 0#16 ∧
      t.runInf = false ∧ t.hRdata = s.hRdata ∧ t.inputs = rest ∧
      (s.busy = false → t.display = s.display ∧ t.dispTrace = s.dispTrace)

/-- R342: a reset aborts the pending operation. During a RENDER or a RUN iteration it leaves the display
with a prefix of the writes of R182, every length from 0 to 4000 being admitted; during an operation other
than these it leaves the display alone. Either way the block is in its reset state. A RUN whose STOP is
pending has a statement of its own (log 5). -/
def Obligations.ResetAbortsTheOperationAndKeepsItsWrites : Prop :=
  ∀ (s : State) (k : Nat) (p : List Transaction) (rest : List Input),
    s.busy = true → k ≤ 4000 → s.inputs = .reset k p :: rest →
    ∃ t, step s = .next t ∧ BlockIsReset t ∧
      (s.op = .render ∨ (s.op = .run ∧ s.stopPend = false) →
        t.dispTrace = ((List.range k).map (renderWrite s.G)).reverse ++ s.dispTrace ∧
        ∀ off, displayByte t off =
          if off < k then (renderWrite s.G off).data else displayByte s off) ∧
      (s.op ≠ .render → s.op ≠ .run → t.display = s.display ∧ t.dispTrace = s.dispTrace)

/-- A reset during a RUN whose STOP is pending: the STOP may have come in the middle of an iteration, so a
prefix of the render's writes of every length from 0 to 4000 may stand here too. The model's reading of
R342, not its words (DEDUCED: log 5). -/
def Obligations.ResetDuringAStoppingRunMayKeepWrites : Prop :=
  ∀ (s : State) (k : Nat) (p : List Transaction) (rest : List Input),
    s.busy = true → s.op = .run → s.stopPend = true → k ≤ 4000 → s.inputs = .reset k p :: rest →
    ∃ t, step s = .next t ∧ BlockIsReset t ∧
      t.dispTrace = ((List.range k).map (renderWrite s.G)).reverse ++ s.dispTrace ∧
      ∀ off, displayByte t off =
        if off < k then (renderWrite s.G off).data else displayByte s off

/-- When power has returned and the system has reset the block, the block is in its reset state and the
display holds arbitrary bytes (R344, 10_state.md R56; one step for all this is the model's form, log 10).
Of a RENDER or RUN that the loss of power cut short, a prefix of the display writes of any length is
recorded, the model's choice where the spec is silent (log 19); otherwise the record is as before. -/
def Obligations.PowerCycleResetsAndForgetsTheDisplay : Prop :=
  ∀ (s : State) (k : Nat) (rest : List Input), k ≤ 4000 → s.inputs = .powerCycle k :: rest →
    ∃ t, step s = .next t ∧ BlockIsReset t ∧
      (∀ off, displayByte t off = powerUpByte (s.powerUps + 1) off) ∧
      t.dispTrace = (if s.busy = true ∧ (s.op = .render ∨ s.op = .run)
        then ((List.range k).map (renderWrite s.G)).reverse else []) ++ s.dispTrace

/-! ## The host's pseudo-instructions -/

/-- SETCELL on an interior cell while idle (30_encoding.md R114): the two transactions complete without
an error and leave exactly that cell set. -/
def Obligations.SetCellPseudoSetsOneInteriorCell : Prop :=
  ∀ (s : State) (r c : Nat) (a : Bool), s.busy = false →
    1 ≤ r → r ≤ H - 2 → 1 ≤ c → c ≤ W - 2 →
    s.inputs = (expand (.setCell r c a)).map (fun i => .host (encode i)) →
    ∃ t, core.run 2 s = .next t ∧ t.err = s.err ∧ t.errcode = s.errcode ∧
      t.cellAddr.toNat = idx r c ∧
      ∀ i, i < N → cell t.G i = if i = idx r c then (if a = true then ALIVE else DEAD) else cell s.G i
end

