-- ==== Sys2Proof/Laws/Encoding.lean ====
section
/-! SUPPORT. The fields of a transaction word and its assembly undo each other (30_encoding.md R101,
R105), and a mask of REG and RW keeps exactly those fields. -/

namespace Sys2Proof

@[simp] theorem rwField_transaction (rw : BitVec 1) (reg : BitVec 3) (d : Word) :
    rwField (transaction rw reg d) = rw.getLsbD 0 := by
  simp only [rwField, transaction, BitVec.getLsbD_append]
  simp

@[simp] theorem regField_transaction (rw : BitVec 1) (reg : BitVec 3) (d : Word) :
    regField (transaction rw reg d) = reg := by
  apply BitVec.eq_of_getLsbD_eq
  intro i hi
  simp only [regField, transaction, BitVec.getLsbD_extractLsb', BitVec.getLsbD_append]
  simp [hi]

@[simp] theorem dataField_transaction (rw : BitVec 1) (reg : BitVec 3) (d : Word) :
    dataField (transaction rw reg d) = d := by
  apply BitVec.eq_of_getLsbD_eq
  intro i hi
  simp only [dataField, transaction, BitVec.getLsbD_extractLsb', BitVec.getLsbD_append]
  simp [hi]

/-- A transaction word is its three fields (R101). -/
theorem transaction_fields (t : Transaction) :
    transaction (BitVec.ofBool (rwField t)) (regField t) (dataField t) = t := by
  apply BitVec.eq_of_getLsbD_eq
  intro i hi
  simp only [transaction, BitVec.getLsbD_append, dataField, regField, rwField,
    BitVec.getLsbD_extractLsb', BitVec.getLsbD_ofBool]
  by_cases h1 : i < 16
  · simp [h1]
  · by_cases h2 : i < 19
    · have h3 : i - 16 < 3 := by omega
      have h4 : 16 + (i - 16) = i := by omega
      simp [h1, h3, h4]
    · have h3 : i = 19 := by omega
      subst h3
      simp

/-- OP and the reserved field of an assembled command word (R105). -/
@[simp] theorem reservedField_append (r : BitVec 12) (op : BitVec 4) :
    reservedField (r ++ op) = r := by
  apply BitVec.eq_of_getLsbD_eq
  intro i hi
  simp only [reservedField, BitVec.getLsbD_extractLsb', BitVec.getLsbD_append]
  simp [hi]

@[simp] theorem opField_append (r : BitVec 12) (op : BitVec 4) : opField (r ++ op) = op := by
  apply BitVec.eq_of_getLsbD_eq
  intro i hi
  simp only [opField, BitVec.getLsbD_extractLsb', BitVec.getLsbD_append]
  simp [hi]

/-- A command word is its two fields (R105). -/
theorem command_fields (d : Word) : reservedField d ++ opField d = d := by
  apply BitVec.eq_of_getLsbD_eq
  intro i hi
  simp only [reservedField, opField, BitVec.getLsbD_extractLsb', BitVec.getLsbD_append]
  by_cases h1 : i < 4
  · simp [h1]
  · have h3 : i - 4 < 12 := by omega
    have h4 : 4 + (i - 4) = i := by omega
    simp [h1, h3, h4]

/-- The mask of RW and REG clears DATA and keeps the rest. -/
theorem transaction_and_head (rw : BitVec 1) (reg : BitVec 3) (d : Word) :
    transaction rw reg d &&& 0xF0000#20 = transaction rw reg 0#16 := by
  have h : (0xF0000#20) = transaction 1#1 7#3 0#16 := by decide
  have h1 : rw &&& 1#1 = rw := by revert rw; decide
  have h2 : reg &&& 7#3 = reg := by revert reg; decide
  rw [h]
  unfold transaction
  rw [BitVec.and_append, BitVec.and_append, h1, h2, BitVec.and_zero]

/-- A write word matches the row that fixes RW and REG only. -/
theorem writeWord_and_head (reg : BitVec 3) (d : Word) :
    writeWord reg d &&& 0xF0000#20 = writeWord reg 0#16 := transaction_and_head 1#1 reg d

/-- Decoding an assembled write (R111). -/
theorem decode_writeWord (reg : BitVec 3) (d : Word) : decode (writeWord reg d) = decodeWrite reg d := by
  simp [decode, writeWord]

/-- Decoding an assembled read (R111). -/
theorem decode_readWord (reg : BitVec 3) : decode (readWord reg) = decodeRead reg := by
  simp [decode, readWord]

/-- The words `0x80000 | v` to `0xF0000 | v` of 45_host_access.md are writes of `v`. -/
theorem writeWord_or (reg : BitVec 3) (v : Word) :
    writeWord reg 0#16 ||| v.setWidth 20 = writeWord reg v := by
  have h : v.setWidth 20 = transaction 0#1 0#3 v := by
    apply BitVec.eq_of_getLsbD_eq
    intro i hi
    simp only [transaction, BitVec.getLsbD_append, BitVec.getLsbD_setWidth]
    by_cases h1 : i < 16
    · simp [h1, hi]
    · have h2 : v.getLsbD i = false := BitVec.getLsbD_of_ge _ _ (by omega)
      simp [h1, h2]
  rw [h]
  unfold writeWord transaction
  rw [BitVec.or_append, BitVec.or_append]
  simp

end Sys2Proof
end

