-- ==== Sys2Proof/Laws/State.lean ====
section
/-! SUPPORT. The fields of every unconditional state update, one lemma per field per update, each true by
rfl, so that no later proof unfolds a record update. -/

namespace Sys2Proof.Machine

open Sys2Proof.Config

variable (s : State)

/-! ### draw -/

@[simp] theorem draw_S : (draw s).S = lfsrNext s.S := (rfl)
@[simp] theorem draw_G : (draw s).G = s.G := (rfl)
@[simp] theorem draw_C : (draw s).C = s.C := (rfl)
@[simp] theorem draw_cellAddr : (draw s).cellAddr = s.cellAddr := (rfl)
@[simp] theorem draw_genCount : (draw s).genCount = s.genCount := (rfl)
@[simp] theorem draw_genLimit : (draw s).genLimit = s.genLimit := (rfl)
@[simp] theorem draw_busy : (draw s).busy = s.busy := (rfl)
@[simp] theorem draw_running : (draw s).running = s.running := (rfl)
@[simp] theorem draw_stopPend : (draw s).stopPend = s.stopPend := (rfl)
@[simp] theorem draw_err : (draw s).err = s.err := (rfl)
@[simp] theorem draw_errcode : (draw s).errcode = s.errcode := (rfl)
@[simp] theorem draw_op : (draw s).op = s.op := (rfl)
@[simp] theorem draw_runLeft : (draw s).runLeft = s.runLeft := (rfl)
@[simp] theorem draw_runInf : (draw s).runInf = s.runInf := (rfl)
@[simp] theorem draw_display : (draw s).display = s.display := (rfl)
@[simp] theorem draw_dispTrace : (draw s).dispTrace = s.dispTrace := (rfl)
@[simp] theorem draw_hRdata : (draw s).hRdata = s.hRdata := (rfl)
@[simp] theorem draw_inputs : (draw s).inputs = s.inputs := (rfl)
@[simp] theorem draw_freeReads : (draw s).freeReads = s.freeReads := (rfl)
@[simp] theorem draw_powerUps : (draw s).powerUps = s.powerUps := (rfl)

/-! ### setCell -/

@[simp] theorem setCell_S (i : Nat) (v : Byte) : (setCell i v s).S = s.S := (rfl)
@[simp] theorem setCell_C (i : Nat) (v : Byte) : (setCell i v s).C = s.C := (rfl)
@[simp] theorem setCell_cellAddr (i : Nat) (v : Byte) : (setCell i v s).cellAddr = s.cellAddr := (rfl)
@[simp] theorem setCell_genCount (i : Nat) (v : Byte) : (setCell i v s).genCount = s.genCount := (rfl)
@[simp] theorem setCell_genLimit (i : Nat) (v : Byte) : (setCell i v s).genLimit = s.genLimit := (rfl)
@[simp] theorem setCell_busy (i : Nat) (v : Byte) : (setCell i v s).busy = s.busy := (rfl)
@[simp] theorem setCell_running (i : Nat) (v : Byte) : (setCell i v s).running = s.running := (rfl)
@[simp] theorem setCell_stopPend (i : Nat) (v : Byte) : (setCell i v s).stopPend = s.stopPend := (rfl)
@[simp] theorem setCell_err (i : Nat) (v : Byte) : (setCell i v s).err = s.err := (rfl)
@[simp] theorem setCell_errcode (i : Nat) (v : Byte) : (setCell i v s).errcode = s.errcode := (rfl)
@[simp] theorem setCell_op (i : Nat) (v : Byte) : (setCell i v s).op = s.op := (rfl)
@[simp] theorem setCell_runLeft (i : Nat) (v : Byte) : (setCell i v s).runLeft = s.runLeft := (rfl)
@[simp] theorem setCell_runInf (i : Nat) (v : Byte) : (setCell i v s).runInf = s.runInf := (rfl)
@[simp] theorem setCell_display (i : Nat) (v : Byte) : (setCell i v s).display = s.display := (rfl)
@[simp] theorem setCell_dispTrace (i : Nat) (v : Byte) : (setCell i v s).dispTrace = s.dispTrace := (rfl)
@[simp] theorem setCell_hRdata (i : Nat) (v : Byte) : (setCell i v s).hRdata = s.hRdata := (rfl)
@[simp] theorem setCell_inputs (i : Nat) (v : Byte) : (setCell i v s).inputs = s.inputs := (rfl)
@[simp] theorem setCell_freeReads (i : Nat) (v : Byte) : (setCell i v s).freeReads = s.freeReads := (rfl)
@[simp] theorem setCell_powerUps (i : Nat) (v : Byte) : (setCell i v s).powerUps = s.powerUps := (rfl)

/-! ### setCount -/

@[simp] theorem setCount_S (i : Nat) (n : Count) : (setCount i n s).S = s.S := (rfl)
@[simp] theorem setCount_G (i : Nat) (n : Count) : (setCount i n s).G = s.G := (rfl)
@[simp] theorem setCount_cellAddr (i : Nat) (n : Count) : (setCount i n s).cellAddr = s.cellAddr := (rfl)
@[simp] theorem setCount_genCount (i : Nat) (n : Count) : (setCount i n s).genCount = s.genCount := (rfl)
@[simp] theorem setCount_genLimit (i : Nat) (n : Count) : (setCount i n s).genLimit = s.genLimit := (rfl)
@[simp] theorem setCount_busy (i : Nat) (n : Count) : (setCount i n s).busy = s.busy := (rfl)
@[simp] theorem setCount_running (i : Nat) (n : Count) : (setCount i n s).running = s.running := (rfl)
@[simp] theorem setCount_stopPend (i : Nat) (n : Count) : (setCount i n s).stopPend = s.stopPend := (rfl)
@[simp] theorem setCount_err (i : Nat) (n : Count) : (setCount i n s).err = s.err := (rfl)
@[simp] theorem setCount_errcode (i : Nat) (n : Count) : (setCount i n s).errcode = s.errcode := (rfl)
@[simp] theorem setCount_op (i : Nat) (n : Count) : (setCount i n s).op = s.op := (rfl)
@[simp] theorem setCount_runLeft (i : Nat) (n : Count) : (setCount i n s).runLeft = s.runLeft := (rfl)
@[simp] theorem setCount_runInf (i : Nat) (n : Count) : (setCount i n s).runInf = s.runInf := (rfl)
@[simp] theorem setCount_display (i : Nat) (n : Count) : (setCount i n s).display = s.display := (rfl)
@[simp] theorem setCount_dispTrace (i : Nat) (n : Count) : (setCount i n s).dispTrace = s.dispTrace := (rfl)
@[simp] theorem setCount_hRdata (i : Nat) (n : Count) : (setCount i n s).hRdata = s.hRdata := (rfl)
@[simp] theorem setCount_inputs (i : Nat) (n : Count) : (setCount i n s).inputs = s.inputs := (rfl)
@[simp] theorem setCount_freeReads (i : Nat) (n : Count) : (setCount i n s).freeReads = s.freeReads := (rfl)
@[simp] theorem setCount_powerUps (i : Nat) (n : Count) : (setCount i n s).powerUps = s.powerUps := (rfl)

/-! ### dispWrite -/

@[simp] theorem dispWrite_S (w : DispW) : (dispWrite s w).S = s.S := (rfl)
@[simp] theorem dispWrite_G (w : DispW) : (dispWrite s w).G = s.G := (rfl)
@[simp] theorem dispWrite_C (w : DispW) : (dispWrite s w).C = s.C := (rfl)
@[simp] theorem dispWrite_cellAddr (w : DispW) : (dispWrite s w).cellAddr = s.cellAddr := (rfl)
@[simp] theorem dispWrite_genCount (w : DispW) : (dispWrite s w).genCount = s.genCount := (rfl)
@[simp] theorem dispWrite_genLimit (w : DispW) : (dispWrite s w).genLimit = s.genLimit := (rfl)
@[simp] theorem dispWrite_busy (w : DispW) : (dispWrite s w).busy = s.busy := (rfl)
@[simp] theorem dispWrite_running (w : DispW) : (dispWrite s w).running = s.running := (rfl)
@[simp] theorem dispWrite_stopPend (w : DispW) : (dispWrite s w).stopPend = s.stopPend := (rfl)
@[simp] theorem dispWrite_err (w : DispW) : (dispWrite s w).err = s.err := (rfl)
@[simp] theorem dispWrite_errcode (w : DispW) : (dispWrite s w).errcode = s.errcode := (rfl)
@[simp] theorem dispWrite_op (w : DispW) : (dispWrite s w).op = s.op := (rfl)
@[simp] theorem dispWrite_runLeft (w : DispW) : (dispWrite s w).runLeft = s.runLeft := (rfl)
@[simp] theorem dispWrite_runInf (w : DispW) : (dispWrite s w).runInf = s.runInf := (rfl)
@[simp] theorem dispWrite_display (w : DispW) : (dispWrite s w).display = Memory.write s.display w.off.toNat w.data := (rfl)
@[simp] theorem dispWrite_dispTrace (w : DispW) : (dispWrite s w).dispTrace = w :: s.dispTrace := (rfl)
@[simp] theorem dispWrite_hRdata (w : DispW) : (dispWrite s w).hRdata = s.hRdata := (rfl)
@[simp] theorem dispWrite_inputs (w : DispW) : (dispWrite s w).inputs = s.inputs := (rfl)
@[simp] theorem dispWrite_freeReads (w : DispW) : (dispWrite s w).freeReads = s.freeReads := (rfl)
@[simp] theorem dispWrite_powerUps (w : DispW) : (dispWrite s w).powerUps = s.powerUps := (rfl)

/-! ### clearError -/

@[simp] theorem clearError_S : (clearError s).S = s.S := (rfl)
@[simp] theorem clearError_G : (clearError s).G = s.G := (rfl)
@[simp] theorem clearError_C : (clearError s).C = s.C := (rfl)
@[simp] theorem clearError_cellAddr : (clearError s).cellAddr = s.cellAddr := (rfl)
@[simp] theorem clearError_genCount : (clearError s).genCount = s.genCount := (rfl)
@[simp] theorem clearError_genLimit : (clearError s).genLimit = s.genLimit := (rfl)
@[simp] theorem clearError_busy : (clearError s).busy = s.busy := (rfl)
@[simp] theorem clearError_running : (clearError s).running = s.running := (rfl)
@[simp] theorem clearError_stopPend : (clearError s).stopPend = s.stopPend := (rfl)
@[simp] theorem clearError_err : (clearError s).err = false := (rfl)
@[simp] theorem clearError_errcode : (clearError s).errcode = 0#3 := (rfl)
@[simp] theorem clearError_op : (clearError s).op = s.op := (rfl)
@[simp] theorem clearError_runLeft : (clearError s).runLeft = s.runLeft := (rfl)
@[simp] theorem clearError_runInf : (clearError s).runInf = s.runInf := (rfl)
@[simp] theorem clearError_display : (clearError s).display = s.display := (rfl)
@[simp] theorem clearError_dispTrace : (clearError s).dispTrace = s.dispTrace := (rfl)
@[simp] theorem clearError_hRdata : (clearError s).hRdata = s.hRdata := (rfl)
@[simp] theorem clearError_inputs : (clearError s).inputs = s.inputs := (rfl)
@[simp] theorem clearError_freeReads : (clearError s).freeReads = s.freeReads := (rfl)
@[simp] theorem clearError_powerUps : (clearError s).powerUps = s.powerUps := (rfl)

/-! ### answer -/

@[simp] theorem answer_S (v : Word) : (answer v s).S = s.S := (rfl)
@[simp] theorem answer_G (v : Word) : (answer v s).G = s.G := (rfl)
@[simp] theorem answer_C (v : Word) : (answer v s).C = s.C := (rfl)
@[simp] theorem answer_cellAddr (v : Word) : (answer v s).cellAddr = s.cellAddr := (rfl)
@[simp] theorem answer_genCount (v : Word) : (answer v s).genCount = s.genCount := (rfl)
@[simp] theorem answer_genLimit (v : Word) : (answer v s).genLimit = s.genLimit := (rfl)
@[simp] theorem answer_busy (v : Word) : (answer v s).busy = s.busy := (rfl)
@[simp] theorem answer_running (v : Word) : (answer v s).running = s.running := (rfl)
@[simp] theorem answer_stopPend (v : Word) : (answer v s).stopPend = s.stopPend := (rfl)
@[simp] theorem answer_err (v : Word) : (answer v s).err = s.err := (rfl)
@[simp] theorem answer_errcode (v : Word) : (answer v s).errcode = s.errcode := (rfl)
@[simp] theorem answer_op (v : Word) : (answer v s).op = s.op := (rfl)
@[simp] theorem answer_runLeft (v : Word) : (answer v s).runLeft = s.runLeft := (rfl)
@[simp] theorem answer_runInf (v : Word) : (answer v s).runInf = s.runInf := (rfl)
@[simp] theorem answer_display (v : Word) : (answer v s).display = s.display := (rfl)
@[simp] theorem answer_dispTrace (v : Word) : (answer v s).dispTrace = s.dispTrace := (rfl)
@[simp] theorem answer_hRdata (v : Word) : (answer v s).hRdata = v :: s.hRdata := (rfl)
@[simp] theorem answer_inputs (v : Word) : (answer v s).inputs = s.inputs := (rfl)
@[simp] theorem answer_freeReads (v : Word) : (answer v s).freeReads = s.freeReads := (rfl)
@[simp] theorem answer_powerUps (v : Word) : (answer v s).powerUps = s.powerUps := (rfl)

/-! ### acceptOp -/

@[simp] theorem acceptOp_S (o : Op) : (acceptOp o s).S = s.S := (rfl)
@[simp] theorem acceptOp_G (o : Op) : (acceptOp o s).G = s.G := (rfl)
@[simp] theorem acceptOp_C (o : Op) : (acceptOp o s).C = s.C := (rfl)
@[simp] theorem acceptOp_cellAddr (o : Op) : (acceptOp o s).cellAddr = s.cellAddr := (rfl)
@[simp] theorem acceptOp_genCount (o : Op) : (acceptOp o s).genCount = s.genCount := (rfl)
@[simp] theorem acceptOp_genLimit (o : Op) : (acceptOp o s).genLimit = s.genLimit := (rfl)
@[simp] theorem acceptOp_busy (o : Op) : (acceptOp o s).busy = true := (rfl)
@[simp] theorem acceptOp_running (o : Op) : (acceptOp o s).running = s.running := (rfl)
@[simp] theorem acceptOp_stopPend (o : Op) : (acceptOp o s).stopPend = s.stopPend := (rfl)
@[simp] theorem acceptOp_err (o : Op) : (acceptOp o s).err = s.err := (rfl)
@[simp] theorem acceptOp_errcode (o : Op) : (acceptOp o s).errcode = s.errcode := (rfl)
@[simp] theorem acceptOp_op (o : Op) : (acceptOp o s).op = o := (rfl)
@[simp] theorem acceptOp_runLeft (o : Op) : (acceptOp o s).runLeft = s.runLeft := (rfl)
@[simp] theorem acceptOp_runInf (o : Op) : (acceptOp o s).runInf = s.runInf := (rfl)
@[simp] theorem acceptOp_display (o : Op) : (acceptOp o s).display = s.display := (rfl)
@[simp] theorem acceptOp_dispTrace (o : Op) : (acceptOp o s).dispTrace = s.dispTrace := (rfl)
@[simp] theorem acceptOp_hRdata (o : Op) : (acceptOp o s).hRdata = s.hRdata := (rfl)
@[simp] theorem acceptOp_inputs (o : Op) : (acceptOp o s).inputs = s.inputs := (rfl)
@[simp] theorem acceptOp_freeReads (o : Op) : (acceptOp o s).freeReads = s.freeReads := (rfl)
@[simp] theorem acceptOp_powerUps (o : Op) : (acceptOp o s).powerUps = s.powerUps := (rfl)

/-! ### acceptRun -/

@[simp] theorem acceptRun_S : (acceptRun s).S = s.S := (rfl)
@[simp] theorem acceptRun_G : (acceptRun s).G = s.G := (rfl)
@[simp] theorem acceptRun_C : (acceptRun s).C = s.C := (rfl)
@[simp] theorem acceptRun_cellAddr : (acceptRun s).cellAddr = s.cellAddr := (rfl)
@[simp] theorem acceptRun_genCount : (acceptRun s).genCount = s.genCount := (rfl)
@[simp] theorem acceptRun_genLimit : (acceptRun s).genLimit = s.genLimit := (rfl)
@[simp] theorem acceptRun_busy : (acceptRun s).busy = true := (rfl)
@[simp] theorem acceptRun_running : (acceptRun s).running = true := (rfl)
@[simp] theorem acceptRun_stopPend : (acceptRun s).stopPend = false := (rfl)
@[simp] theorem acceptRun_err : (acceptRun s).err = s.err := (rfl)
@[simp] theorem acceptRun_errcode : (acceptRun s).errcode = s.errcode := (rfl)
@[simp] theorem acceptRun_op : (acceptRun s).op = .run := (rfl)
@[simp] theorem acceptRun_runLeft : (acceptRun s).runLeft = s.genLimit := (rfl)
@[simp] theorem acceptRun_runInf : (acceptRun s).runInf = (s.genLimit == 0#16) := (rfl)
@[simp] theorem acceptRun_display : (acceptRun s).display = s.display := (rfl)
@[simp] theorem acceptRun_dispTrace : (acceptRun s).dispTrace = s.dispTrace := (rfl)
@[simp] theorem acceptRun_hRdata : (acceptRun s).hRdata = s.hRdata := (rfl)
@[simp] theorem acceptRun_inputs : (acceptRun s).inputs = s.inputs := (rfl)
@[simp] theorem acceptRun_freeReads : (acceptRun s).freeReads = s.freeReads := (rfl)
@[simp] theorem acceptRun_powerUps : (acceptRun s).powerUps = s.powerUps := (rfl)

/-! ### finishOp -/

@[simp] theorem finishOp_S : (finishOp s).S = s.S := (rfl)
@[simp] theorem finishOp_G : (finishOp s).G = s.G := (rfl)
@[simp] theorem finishOp_C : (finishOp s).C = s.C := (rfl)
@[simp] theorem finishOp_cellAddr : (finishOp s).cellAddr = s.cellAddr := (rfl)
@[simp] theorem finishOp_genCount : (finishOp s).genCount = s.genCount := (rfl)
@[simp] theorem finishOp_genLimit : (finishOp s).genLimit = s.genLimit := (rfl)
@[simp] theorem finishOp_busy : (finishOp s).busy = false := (rfl)
@[simp] theorem finishOp_running : (finishOp s).running = s.running := (rfl)
@[simp] theorem finishOp_stopPend : (finishOp s).stopPend = s.stopPend := (rfl)
@[simp] theorem finishOp_err : (finishOp s).err = s.err := (rfl)
@[simp] theorem finishOp_errcode : (finishOp s).errcode = s.errcode := (rfl)
@[simp] theorem finishOp_op : (finishOp s).op = .none := (rfl)
@[simp] theorem finishOp_runLeft : (finishOp s).runLeft = s.runLeft := (rfl)
@[simp] theorem finishOp_runInf : (finishOp s).runInf = s.runInf := (rfl)
@[simp] theorem finishOp_display : (finishOp s).display = s.display := (rfl)
@[simp] theorem finishOp_dispTrace : (finishOp s).dispTrace = s.dispTrace := (rfl)
@[simp] theorem finishOp_hRdata : (finishOp s).hRdata = s.hRdata := (rfl)
@[simp] theorem finishOp_inputs : (finishOp s).inputs = s.inputs := (rfl)
@[simp] theorem finishOp_freeReads : (finishOp s).freeReads = s.freeReads := (rfl)
@[simp] theorem finishOp_powerUps : (finishOp s).powerUps = s.powerUps := (rfl)

/-! ### endRun -/

@[simp] theorem endRun_S : (endRun s).S = s.S := (rfl)
@[simp] theorem endRun_G : (endRun s).G = s.G := (rfl)
@[simp] theorem endRun_C : (endRun s).C = s.C := (rfl)
@[simp] theorem endRun_cellAddr : (endRun s).cellAddr = s.cellAddr := (rfl)
@[simp] theorem endRun_genCount : (endRun s).genCount = s.genCount := (rfl)
@[simp] theorem endRun_genLimit : (endRun s).genLimit = s.genLimit := (rfl)
@[simp] theorem endRun_busy : (endRun s).busy = false := (rfl)
@[simp] theorem endRun_running : (endRun s).running = false := (rfl)
@[simp] theorem endRun_stopPend : (endRun s).stopPend = false := (rfl)
@[simp] theorem endRun_err : (endRun s).err = s.err := (rfl)
@[simp] theorem endRun_errcode : (endRun s).errcode = s.errcode := (rfl)
@[simp] theorem endRun_op : (endRun s).op = .none := (rfl)
@[simp] theorem endRun_runLeft : (endRun s).runLeft = s.runLeft := (rfl)
@[simp] theorem endRun_runInf : (endRun s).runInf = s.runInf := (rfl)
@[simp] theorem endRun_display : (endRun s).display = s.display := (rfl)
@[simp] theorem endRun_dispTrace : (endRun s).dispTrace = s.dispTrace := (rfl)
@[simp] theorem endRun_hRdata : (endRun s).hRdata = s.hRdata := (rfl)
@[simp] theorem endRun_inputs : (endRun s).inputs = s.inputs := (rfl)
@[simp] theorem endRun_freeReads : (endRun s).freeReads = s.freeReads := (rfl)
@[simp] theorem endRun_powerUps : (endRun s).powerUps = s.powerUps := (rfl)

/-! ### zeroGenCount -/

@[simp] theorem zeroGenCount_S : (zeroGenCount s).S = s.S := (rfl)
@[simp] theorem zeroGenCount_G : (zeroGenCount s).G = s.G := (rfl)
@[simp] theorem zeroGenCount_C : (zeroGenCount s).C = s.C := (rfl)
@[simp] theorem zeroGenCount_cellAddr : (zeroGenCount s).cellAddr = s.cellAddr := (rfl)
@[simp] theorem zeroGenCount_genCount : (zeroGenCount s).genCount = 0#16 := (rfl)
@[simp] theorem zeroGenCount_genLimit : (zeroGenCount s).genLimit = s.genLimit := (rfl)
@[simp] theorem zeroGenCount_busy : (zeroGenCount s).busy = s.busy := (rfl)
@[simp] theorem zeroGenCount_running : (zeroGenCount s).running = s.running := (rfl)
@[simp] theorem zeroGenCount_stopPend : (zeroGenCount s).stopPend = s.stopPend := (rfl)
@[simp] theorem zeroGenCount_err : (zeroGenCount s).err = s.err := (rfl)
@[simp] theorem zeroGenCount_errcode : (zeroGenCount s).errcode = s.errcode := (rfl)
@[simp] theorem zeroGenCount_op : (zeroGenCount s).op = s.op := (rfl)
@[simp] theorem zeroGenCount_runLeft : (zeroGenCount s).runLeft = s.runLeft := (rfl)
@[simp] theorem zeroGenCount_runInf : (zeroGenCount s).runInf = s.runInf := (rfl)
@[simp] theorem zeroGenCount_display : (zeroGenCount s).display = s.display := (rfl)
@[simp] theorem zeroGenCount_dispTrace : (zeroGenCount s).dispTrace = s.dispTrace := (rfl)
@[simp] theorem zeroGenCount_hRdata : (zeroGenCount s).hRdata = s.hRdata := (rfl)
@[simp] theorem zeroGenCount_inputs : (zeroGenCount s).inputs = s.inputs := (rfl)
@[simp] theorem zeroGenCount_freeReads : (zeroGenCount s).freeReads = s.freeReads := (rfl)
@[simp] theorem zeroGenCount_powerUps : (zeroGenCount s).powerUps = s.powerUps := (rfl)

/-! ### bumpGenCount -/

@[simp] theorem bumpGenCount_S : (bumpGenCount s).S = s.S := (rfl)
@[simp] theorem bumpGenCount_G : (bumpGenCount s).G = s.G := (rfl)
@[simp] theorem bumpGenCount_C : (bumpGenCount s).C = s.C := (rfl)
@[simp] theorem bumpGenCount_cellAddr : (bumpGenCount s).cellAddr = s.cellAddr := (rfl)
@[simp] theorem bumpGenCount_genCount : (bumpGenCount s).genCount = s.genCount + 1#16 := (rfl)
@[simp] theorem bumpGenCount_genLimit : (bumpGenCount s).genLimit = s.genLimit := (rfl)
@[simp] theorem bumpGenCount_busy : (bumpGenCount s).busy = s.busy := (rfl)
@[simp] theorem bumpGenCount_running : (bumpGenCount s).running = s.running := (rfl)
@[simp] theorem bumpGenCount_stopPend : (bumpGenCount s).stopPend = s.stopPend := (rfl)
@[simp] theorem bumpGenCount_err : (bumpGenCount s).err = s.err := (rfl)
@[simp] theorem bumpGenCount_errcode : (bumpGenCount s).errcode = s.errcode := (rfl)
@[simp] theorem bumpGenCount_op : (bumpGenCount s).op = s.op := (rfl)
@[simp] theorem bumpGenCount_runLeft : (bumpGenCount s).runLeft = s.runLeft := (rfl)
@[simp] theorem bumpGenCount_runInf : (bumpGenCount s).runInf = s.runInf := (rfl)
@[simp] theorem bumpGenCount_display : (bumpGenCount s).display = s.display := (rfl)
@[simp] theorem bumpGenCount_dispTrace : (bumpGenCount s).dispTrace = s.dispTrace := (rfl)
@[simp] theorem bumpGenCount_hRdata : (bumpGenCount s).hRdata = s.hRdata := (rfl)
@[simp] theorem bumpGenCount_inputs : (bumpGenCount s).inputs = s.inputs := (rfl)
@[simp] theorem bumpGenCount_freeReads : (bumpGenCount s).freeReads = s.freeReads := (rfl)
@[simp] theorem bumpGenCount_powerUps : (bumpGenCount s).powerUps = s.powerUps := (rfl)

/-! ### setInputs -/

@[simp] theorem setInputs_S (l : List Input) : (setInputs l s).S = s.S := (rfl)
@[simp] theorem setInputs_G (l : List Input) : (setInputs l s).G = s.G := (rfl)
@[simp] theorem setInputs_C (l : List Input) : (setInputs l s).C = s.C := (rfl)
@[simp] theorem setInputs_cellAddr (l : List Input) : (setInputs l s).cellAddr = s.cellAddr := (rfl)
@[simp] theorem setInputs_genCount (l : List Input) : (setInputs l s).genCount = s.genCount := (rfl)
@[simp] theorem setInputs_genLimit (l : List Input) : (setInputs l s).genLimit = s.genLimit := (rfl)
@[simp] theorem setInputs_busy (l : List Input) : (setInputs l s).busy = s.busy := (rfl)
@[simp] theorem setInputs_running (l : List Input) : (setInputs l s).running = s.running := (rfl)
@[simp] theorem setInputs_stopPend (l : List Input) : (setInputs l s).stopPend = s.stopPend := (rfl)
@[simp] theorem setInputs_err (l : List Input) : (setInputs l s).err = s.err := (rfl)
@[simp] theorem setInputs_errcode (l : List Input) : (setInputs l s).errcode = s.errcode := (rfl)
@[simp] theorem setInputs_op (l : List Input) : (setInputs l s).op = s.op := (rfl)
@[simp] theorem setInputs_runLeft (l : List Input) : (setInputs l s).runLeft = s.runLeft := (rfl)
@[simp] theorem setInputs_runInf (l : List Input) : (setInputs l s).runInf = s.runInf := (rfl)
@[simp] theorem setInputs_display (l : List Input) : (setInputs l s).display = s.display := (rfl)
@[simp] theorem setInputs_dispTrace (l : List Input) : (setInputs l s).dispTrace = s.dispTrace := (rfl)
@[simp] theorem setInputs_hRdata (l : List Input) : (setInputs l s).hRdata = s.hRdata := (rfl)
@[simp] theorem setInputs_inputs (l : List Input) : (setInputs l s).inputs = l := (rfl)
@[simp] theorem setInputs_freeReads (l : List Input) : (setInputs l s).freeReads = s.freeReads := (rfl)
@[simp] theorem setInputs_powerUps (l : List Input) : (setInputs l s).powerUps = s.powerUps := (rfl)

/-! ### resetBlock -/

@[simp] theorem resetBlock_S : (resetBlock s).S = SEED := (rfl)
@[simp] theorem resetBlock_G : (resetBlock s).G = Vector.replicate N DEAD := (rfl)
@[simp] theorem resetBlock_C : (resetBlock s).C = Vector.replicate N 0#4 := (rfl)
@[simp] theorem resetBlock_cellAddr : (resetBlock s).cellAddr = 0#16 := (rfl)
@[simp] theorem resetBlock_genCount : (resetBlock s).genCount = 0#16 := (rfl)
@[simp] theorem resetBlock_genLimit : (resetBlock s).genLimit = 0#16 := (rfl)
@[simp] theorem resetBlock_busy : (resetBlock s).busy = false := (rfl)
@[simp] theorem resetBlock_running : (resetBlock s).running = false := (rfl)
@[simp] theorem resetBlock_stopPend : (resetBlock s).stopPend = false := (rfl)
@[simp] theorem resetBlock_err : (resetBlock s).err = false := (rfl)
@[simp] theorem resetBlock_errcode : (resetBlock s).errcode = 0#3 := (rfl)
@[simp] theorem resetBlock_op : (resetBlock s).op = .none := (rfl)
@[simp] theorem resetBlock_runLeft : (resetBlock s).runLeft = 0#16 := (rfl)
@[simp] theorem resetBlock_runInf : (resetBlock s).runInf = false := (rfl)
@[simp] theorem resetBlock_display : (resetBlock s).display = s.display := (rfl)
@[simp] theorem resetBlock_dispTrace : (resetBlock s).dispTrace = s.dispTrace := (rfl)
@[simp] theorem resetBlock_hRdata : (resetBlock s).hRdata = s.hRdata := (rfl)
@[simp] theorem resetBlock_inputs : (resetBlock s).inputs = s.inputs := (rfl)
@[simp] theorem resetBlock_freeReads : (resetBlock s).freeReads = s.freeReads := (rfl)
@[simp] theorem resetBlock_powerUps : (resetBlock s).powerUps = s.powerUps := (rfl)

end Sys2Proof.Machine
end

