-- ==== Sys2Proof/Laws/Stores.lean ====
section
/-! SUPPORT. The laws of the stores: read after write for cells, counts and the display memory, and the
canonical form of the display memory. -/

namespace Sys2Proof.Machine

open Sys2Proof.Config

/-! ## Cells and counts -/

/-- Read after write: the written cell holds the value and every other cell is as before. -/
theorem cell_setCell (i j : Nat) (v : Byte) (s : State) :
    cell (setCell i v s).G j = if i < N ∧ j = i then v else cell s.G j := by
  by_cases hi : i < N
  · by_cases hj : j < N
    · by_cases h : j = i
      · subst h; simp [cell, setCell, hi]
      · simp [cell, setCell, hi, hj, h, Ne.symm h]
    · have : j ≠ i := by omega
      simp [cell, hj, this]
  · simp [setCell, hi]

/-- Read after write for counts. -/
theorem count_setCount (i j : Nat) (n : Count) (s : State) :
    count (setCount i n s).C j = if i < N ∧ j = i then n else count s.C j := by
  by_cases hi : i < N
  · by_cases hj : j < N
    · by_cases h : j = i
      · subst h; simp [count, setCount, hi]
      · simp [count, setCount, hi, hj, h, Ne.symm h]
    · have : j ≠ i := by omega
      simp [count, hj, this]
  · simp [setCount, hi]

/-- Two grids with the same cells are equal. -/
theorem grid_ext {a b : Grid} (h : ∀ i, i < N → cell a i = cell b i) : a = b := by
  apply Vector.ext
  intro i hi
  simpa [cell, hi] using h i hi

/-- Two count buffers with the same counts are equal. -/
theorem counts_ext {a b : Counts} (h : ∀ i, i < N → count a i = count b i) : a = b := by
  apply Vector.ext
  intro i hi
  simpa [count, hi] using h i hi

@[simp] theorem cell_replicate (i : Nat) : cell (Vector.replicate N DEAD) i = DEAD := by
  simp [cell]

@[simp] theorem count_replicate (i : Nat) : count (Vector.replicate N 0#4) i = 0#4 := by
  simp [count]

theorem cell_ofFn (f : Fin N → Byte) (i : Nat) (hi : i < N) : cell (Vector.ofFn f) i = f ⟨i, hi⟩ := by
  simp [cell, hi]

/-- An index outside the cell space reads DEAD. -/
theorem cell_of_le {g : Grid} {i : Nat} (h : N ≤ i) : cell g i = DEAD := by
  have : ¬ i < N := by omega
  simp [cell, this]

/-! ## The display memory -/

/-- Read after write on the display memory. -/
theorem Memory.read?_write (m : Memory) (a b : Nat) (v : Byte) :
    Memory.read? (Memory.write m a v) b = if b = a then some v else Memory.read? m b := by
  induction m with
  | nil => simp [Memory.write, Memory.read?]
  | cons p rest ih =>
    obtain ⟨c, w⟩ := p
    unfold Memory.write
    by_cases h1 : a < c
    · simp [h1, Memory.read?]
    · by_cases h2 : a = c
      · subst h2
        by_cases hb : b = a <;> simp [Memory.read?, hb]
      · by_cases hb : b = c
        · have : ¬ b = a := by omega
          simp [h1, h2, Memory.read?, hb, Ne.symm h2]
        · simp [h1, h2, Memory.read?, hb, ih]

/-- An entry of a written memory is the written one or an old one. -/
theorem Memory.mem_write {m : Memory} {a : Nat} {v : Byte} {p : Host.Cell}
    (h : p ∈ Memory.write m a v) : p = (a, v) ∨ p ∈ m := by
  induction m with
  | nil => simpa [Memory.write] using h
  | cons q rest ih =>
    obtain ⟨c, w⟩ := q
    unfold Memory.write at h
    split at h
    · simpa using h
    · split at h
      · rcases List.mem_cons.1 h with h | h
        · exact .inl h
        · exact .inr (List.mem_cons_of_mem _ h)
      · rcases List.mem_cons.1 h with h | h
        · exact .inr (by simp [h])
        · exact (ih h).imp id (List.mem_cons_of_mem _)

/-- Writing keeps the offsets strictly rising. -/
theorem Memory.write_pairwise {m : Memory} (a : Nat) (v : Byte)
    (h : m.Pairwise (fun p q => p.1 < q.1)) :
    (Memory.write m a v).Pairwise (fun p q => p.1 < q.1) := by
  induction m with
  | nil => simp [Memory.write]
  | cons q rest ih =>
    obtain ⟨c, w⟩ := q
    obtain ⟨hc, hr⟩ := List.pairwise_cons.1 h
    unfold Memory.write
    split
    · rename_i hac
      refine List.pairwise_cons.2 ⟨fun p hp => ?_, h⟩
      rcases List.mem_cons.1 hp with rfl | hp
      · exact hac
      · exact Nat.lt_trans hac (hc p hp)
    · split
      · rename_i hac
        subst hac
        exact List.pairwise_cons.2 ⟨hc, hr⟩
      · refine List.pairwise_cons.2 ⟨fun p hp => ?_, ih hr⟩
        rcases Memory.mem_write hp with rfl | hp
        · simp; omega
        · exact hc p hp

/-- Every memory operation keeps the canonical form. -/
theorem Memory.write_wf {m : Memory} {a : Nat} (v : Byte) (ha : a < DISP_BYTES) (h : Memory.wf m) :
    Memory.wf (Memory.write m a v) := by
  refine ⟨Memory.write_pairwise a v h.1, fun p hp => ?_⟩
  rcases Memory.mem_write hp with rfl | hp
  · exact ha
  · exact h.2 p hp

/-- Nothing is listed in the reset state's memory, so it has the canonical form. -/
theorem reset_display_wf : Memory.wf State.reset.display := by
  simp [Memory.wf, State.reset]

end Sys2Proof.Machine
end

