-- ==== Sys2Proof/Laws/Ops.lean ====
section
/-! SUPPORT. Everything each conditional operation can do, said once: errors, the BUSY gate, the answer
of a read, a CELL_DATA write, the end of a RUN iteration. -/

namespace Sys2Proof.Machine

open Sys2Proof.Config

/-- `raise Error` writes ERR and ERRCODE and nothing else (60_exceptions.md R301). -/
theorem raiseError_eq (e : Error) (s : State) :
    raiseError e s =
      { s with err := true, errcode := if s.err = false then e.code else s.errcode } := by
  unfold raiseError
  cases h : s.err <;> simp
  rw [← h]

/-- The BUSY gate: rejected while BUSY, performed otherwise. -/
theorem unlessBusy_cases (act : State → State) (s : State) :
    (s.busy = true ∧ unlessBusy act s = raiseError .busy s) ∨
      (s.busy = false ∧ unlessBusy act s = act s) := by
  unfold unlessBusy
  cases h : s.busy <;> simp

/-- An unstable read only adds one value to what the host has read, and may draw one free value. -/
theorem answerUnstable_cases (v : Word) (s : State) :
    (s.busy = true ∧ answerUnstable v s =
        { s with hRdata := freeRead s.freeReads :: s.hRdata, freeReads := s.freeReads + 1 }) ∨
      (s.busy = false ∧ answerUnstable v s = answer v s) := by
  unfold answerUnstable
  cases h : s.busy <;> simp

/-- A CELL_DATA write is rejected with one of three errors or writes one interior cell
(45_host_access.md R281). -/
theorem writeCellData_cases (v : Word) (s : State) :
    (N ≤ s.cellAddr.toNat ∧ writeCellData v s = raiseError .range s) ∨
    (s.cellAddr.toNat < N ∧ border s.cellAddr.toNat = true ∧
      writeCellData v s = raiseError .border s) ∨
    (s.cellAddr.toNat < N ∧ border s.cellAddr.toNat = false ∧ legalCellValue v = false ∧
      writeCellData v s = raiseError .badValue s) ∨
    (s.cellAddr.toNat < N ∧ border s.cellAddr.toNat = false ∧ legalCellValue v = true ∧
      writeCellData v s = setCell s.cellAddr.toNat (v.extractLsb' 0 8) s) := by
  unfold writeCellData
  by_cases h1 : N ≤ s.cellAddr.toNat
  · exact .inl ⟨h1, by rw [if_pos h1]⟩
  · have h1' : s.cellAddr.toNat < N := by omega
    rw [if_neg h1]
    by_cases h2 : border s.cellAddr.toNat = true
    · exact .inr (.inl ⟨h1', h2, by rw [if_pos h2]⟩)
    · rw [if_neg h2]
      have h2' : border s.cellAddr.toNat = false := by simpa using h2
      by_cases h3 : legalCellValue v = false
      · exact .inr (.inr (.inl ⟨h1', h2', h3, by rw [if_pos h3]⟩))
      · exact .inr (.inr (.inr ⟨h1', h2', by simpa using h3, by rw [if_neg h3]⟩))

/-- The byte a legal CELL_DATA write stores is DEAD or ALIVE. -/
theorem legalCellValue_byte {v : Word} (h : legalCellValue v = true) :
    v.extractLsb' 0 8 = DEAD ∨ v.extractLsb' 0 8 = ALIVE := by
  simp only [legalCellValue, Bool.or_eq_true, beq_iff_eq] at h
  rcases h with rfl | rfl
  · left; decide
  · right; decide

/-- STOP sets STOP_PEND while RUNNING and changes nothing else (44_mainloop.md R244). -/
theorem requestStop_eq (s : State) :
    requestStop s = { s with stopPend := s.stopPend || s.running } := by
  unfold requestStop
  split
  · rename_i h
    have e : (s.stopPend || s.running) = true := by simp [h]
    rw [e]
  · rename_i h
    have e : (s.stopPend || s.running) = s.stopPend := by simp [h]
    rw [e]

/-- The end of a RUN iteration: the run goes on or ends (44_mainloop.md R242). -/
theorem countIteration_cases (s : State) :
    (s.runInf = true ∧ countIteration s = s) ∨
    (s.runInf = false ∧ s.runLeft - 1#16 ≠ 0#16 ∧
      countIteration s = { s with runLeft := s.runLeft - 1#16 }) ∨
    (s.runInf = false ∧ s.runLeft - 1#16 = 0#16 ∧
      countIteration s = endRun { s with runLeft := 0#16 }) := by
  unfold countIteration
  by_cases h : s.runInf = true
  · exact .inl ⟨h, by rw [if_pos h]⟩
  · have h' : s.runInf = false := by simpa using h
    by_cases h0 : s.runLeft - 1#16 = 0#16
    · exact .inr (.inr ⟨h', h0, by rw [if_neg h, if_pos h0]⟩)
    · exact .inr (.inl ⟨h', h0, by rw [if_neg h, if_neg h0]⟩)

/-- Cutting an operation short issues the first `issued` of its display writes, or none while idle
(70_reset_and_hazards.md R342). -/
theorem interrupt_cases (issued : Nat) (s : State) :
    (s.busy = true ∧ interrupt issued s = dispWrites ((pendingWrites s).take issued) s) ∨
      (s.busy = false ∧ interrupt issued s = s) := by
  unfold interrupt
  cases h : s.busy <;> simp [dispWrites]

/-- A reset issues the first `issued` display writes of the operation in progress and then resets the
block (70_reset_and_hazards.md R342). -/
theorem hardReset_cases (issued : Nat) (s : State) :
    (s.busy = true ∧ hardReset issued s =
        resetBlock (dispWrites ((pendingWrites s).take issued) s)) ∨
      (s.busy = false ∧ hardReset issued s = resetBlock s) := by
  unfold hardReset
  rcases interrupt_cases issued s with ⟨h, e⟩ | ⟨h, e⟩
  · exact .inl ⟨h, by rw [e]⟩
  · exact .inr ⟨h, by rw [e]⟩

end Sys2Proof.Machine
end

