-- ==== Sys2Proof/Laws/Engine.lean ====
section
/-! SUPPORT. What the engine's loops do, each said once and in closed form: the cells, counts and display
bytes after INIT, CLEAR, EVOLVE and RENDER, and what each leaves alone. -/

namespace Sys2Proof.Machine

open Sys2Proof.Config

/-! ## Geometry -/

/-- A cell index inside the grid. -/
theorem idx_lt {r c : Nat} (hr : r < H) (hc : c < W) : idx r c < N := by
  simp only [idx, N, H, W] at *; omega

theorem row_idx {r c : Nat} (hc : c < W) : row (idx r c) = r := by
  simp only [row, idx, W] at *; omega

theorem col_idx {r c : Nat} (hc : c < W) : col (idx r c) = c := by
  simp only [col, idx, W] at *; omega

theorem idx_row_col (i : Nat) : idx (row i) (col i) = i := by
  simp only [idx, row, col, W]; omega

/-- An interior cell has row 1..H−2 and column 1..W−2 (00_scope.md R14). -/
theorem interior_iff {i : Nat} (hi : i < N) :
    interior i = true ↔ (1 ≤ row i ∧ row i ≤ H - 2) ∧ 1 ≤ col i ∧ col i ≤ W - 2 := by
  simp only [interior, border, row, col, H, W, N, Bool.not_eq_true', Bool.or_eq_false_iff,
    beq_eq_false_iff_ne] at *
  omega

theorem interior_eq_not_border (i : Nat) : interior i = !border i := rfl

/-! ## INIT -/

/-- How many interior cells lie below index `n`: how many draws INIT makes before cell `n`. -/
def interiorBelow (n : Nat) : Nat := (List.range n).countP interior

theorem interiorBelow_succ (n : Nat) :
    interiorBelow (n + 1) = interiorBelow n + if interior n = true then 1 else 0 := by
  simp [interiorBelow, List.range_succ, List.countP_append, List.countP_singleton]

/-- `interiorBelow` row by row: 78 per full interior row (41_initializer.md R162). -/
theorem interiorBelow_eq {n : Nat} (hn : n ≤ N) :
    interiorBelow n =
      if row n = 0 then 0
      else if row n ≤ H - 2 then (W - 2) * (row n - 1) + min (col n - 1) (W - 2) else NI := by
  induction n with
  | zero => simp [interiorBelow, row]
  | succ n ih =>
    have hlt : n < N := by omega
    rw [interiorBelow_succ, ih (by omega)]
    simp only [interior_iff hlt]
    have key : ((if n / 80 = 0 then 0
        else if n / 80 ≤ 23 then 78 * (n / 80 - 1) + min (n % 80 - 1) 78 else 1794) +
        if (1 ≤ n / 80 ∧ n / 80 ≤ 23) ∧ 1 ≤ n % 80 ∧ n % 80 ≤ 78 then 1 else 0) =
        if (n + 1) / 80 = 0 then 0
        else if (n + 1) / 80 ≤ 23 then 78 * ((n + 1) / 80 - 1) + min ((n + 1) % 80 - 1) 78
        else 1794 := by
      clear ih hn
      simp only [N, W, H] at hlt
      split_ifs <;> omega
    exact key

/-- One INIT makes `NI` = 1794 draws (40_prng.md R143). -/
theorem interiorBelow_N : interiorBelow N = NI := by
  rw [interiorBelow_eq (Nat.le_refl _)]; decide

/-- The cell the `k`-th draw decides, counting draws from 0 (41_initializer.md R162). -/
theorem interiorBelow_idx {k : Nat} (hk : k < NI) :
    interiorBelow (idx (1 + k / (W - 2)) (1 + k % (W - 2))) = k := by
  have hr : 1 + k / 78 ≤ 23 := by simp only [NI, W, H] at hk; omega
  have hc : 1 + k % 78 < W := by simp only [W]; omega
  have hlt : idx (1 + k / 78) (1 + k % 78) < N := idx_lt (by simp only [H]; omega) hc
  show interiorBelow (idx (1 + k / 78) (1 + k % 78)) = k
  rw [interiorBelow_eq (Nat.le_of_lt hlt), row_idx hc, col_idx hc, if_neg (by omega),
    if_pos (show 1 + k / 78 ≤ H - 2 from hr)]
  simp only [W, Nat.reduceSub]
  omega

/-- INIT at one cell. -/
theorem initCell_eq (s : State) (i : Nat) :
    initCell s i =
      { s with
        S := if interior i = true then lfsrNext s.S else s.S
        G := (setCell i (if interior i = true ∧ birth (lfsrNext s.S) = true then ALIVE else DEAD) s).G
        C := (setCount i 0#4 s).C } := by
  unfold initCell seedCell
  cases h : interior i <;> cases hb : birth (lfsrNext s.S) <;> simp [setCell, setCount, draw, hb]

/-- INIT's loop up to index `n`, in closed form. -/
theorem initCells_upto (s : State) (n : Nat) (hn : n ≤ N) :
    let t := (List.range n).foldl initCell s
    t.S = lfsrNext^[interiorBelow n] s.S ∧
    (∀ i, cell t.G i = if i < n then
      (if interior i = true ∧ birth (lfsrNext^[interiorBelow i + 1] s.S) = true then ALIVE else DEAD)
      else cell s.G i) ∧
    (∀ i, count t.C i = if i < n then 0#4 else count s.C i) ∧
    t = { s with S := t.S, G := t.G, C := t.C } := by
  induction n with
  | zero => simp [interiorBelow]
  | succ n ih =>
    obtain ⟨h1, h2, h3, h4⟩ := ih (by omega)
    simp only [List.range_succ, List.foldl_append, List.foldl_cons, List.foldl_nil]
    set u := (List.range n).foldl initCell s with hu
    rw [initCell_eq]
    have hN : n < N := by omega
    refine ⟨?_, fun i => ?_, fun i => ?_, ?_⟩
    · simp only [interiorBelow_succ, h1]
      cases interior n <;> simp [Function.iterate_succ_apply']
    · simp only [cell_setCell, h2, h1]
      rcases Nat.lt_trichotomy i n with hi | rfl | hi
      · simp [hi, Nat.ne_of_lt hi, Nat.lt_succ_of_lt hi]
      · simp [hN, Function.iterate_succ_apply']
      · have h5 : ¬ i < n + 1 := by omega
        have h6 : ¬ i < n := by omega
        have h7 : i ≠ n := by omega
        simp [h5, h6, h7]
    · simp only [count_setCount, h3]
      rcases Nat.lt_trichotomy i n with hi | rfl | hi
      · simp [hi, Nat.ne_of_lt hi, Nat.lt_succ_of_lt hi]
      · simp [hN]
      · have h5 : ¬ i < n + 1 := by omega
        have h6 : ¬ i < n := by omega
        have h7 : i ≠ n := by omega
        simp [h5, h6, h7]
    · rw [h4]

/-- `S` after INIT's loop: 1794 draws on. -/
theorem initCells_S (s : State) : (initCells s).S = lfsrNext^[NI] s.S := by
  unfold initCells; rw [← interiorBelow_N]; exact (initCells_upto s N (Nat.le_refl _)).1

/-- The grid after INIT's loop. -/
theorem initCells_cell (s : State) {i : Nat} (hi : i < N) :
    cell (initCells s).G i =
      if interior i = true ∧ birth (lfsrNext^[interiorBelow i + 1] s.S) = true then ALIVE
      else DEAD := by
  unfold initCells
  have h := (initCells_upto s N (Nat.le_refl _)).2.1 i
  rw [if_pos hi] at h
  exact h

/-- Every count is 0 after INIT's loop. -/
theorem initCells_count (s : State) {i : Nat} (hi : i < N) : count (initCells s).C i = 0#4 := by
  unfold initCells
  have h := (initCells_upto s N (Nat.le_refl _)).2.2.1 i
  rw [if_pos hi] at h
  exact h

/-- INIT's loop changes `S`, `G` and `C` only. -/
theorem initCells_frame (s : State) :
    initCells s = { s with S := (initCells s).S, G := (initCells s).G, C := (initCells s).C } := by
  unfold initCells
  exact (initCells_upto s N (Nat.le_refl _)).2.2.2

/-! ## CLEAR -/

/-- CLEAR's loop up to index `n`. -/
theorem clearCells_upto (s : State) (n : Nat) (hn : n ≤ N) :
    let t := (List.range n).foldl clearCell s
    (∀ i, cell t.G i = if i < n then DEAD else cell s.G i) ∧
    (∀ i, count t.C i = if i < n then 0#4 else count s.C i) ∧
    t = { s with G := t.G, C := t.C } := by
  induction n with
  | zero => simp
  | succ n ih =>
    obtain ⟨h2, h3, h4⟩ := ih (by omega)
    simp only [List.range_succ, List.foldl_append, List.foldl_cons, List.foldl_nil]
    set u := (List.range n).foldl clearCell s with hu
    have hN : n < N := by omega
    refine ⟨fun i => ?_, fun i => ?_, ?_⟩
    · simp only [clearCell, setCount_G, cell_setCell, h2]
      split_ifs <;> first | rfl | omega
    · simp only [clearCell, count_setCount, setCell_C, h3]
      split_ifs <;> first | rfl | omega
    · simp only [clearCell, setCount, setCell]
      rw [h4]

/-- CLEAR's loop leaves every cell DEAD and every count 0 and changes nothing else. -/
theorem clearCells_eq (s : State) :
    clearCells s =
      { s with G := Vector.replicate N DEAD, C := Vector.replicate N 0#4 } := by
  obtain ⟨h1, h2, h3⟩ := clearCells_upto s N (Nat.le_refl _)
  unfold clearCells
  generalize (List.range N).foldl clearCell s = t at h1 h2 h3 ⊢
  have hG : t.G = Vector.replicate N DEAD :=
    grid_ext fun i hi => by rw [h1 i, if_pos hi, cell_replicate]
  have hC : t.C = Vector.replicate N 0#4 :=
    counts_ext fun i hi => by rw [h2 i, if_pos hi, count_replicate]
  rw [h3, hG, hC]

/-! ## EVOLVE -/

/-- A cell has at most eight ALIVE neighbours (43_evolver.md R203). -/
theorem ncount_le (g : Grid) (i : Nat) : ncount g i ≤ 8 := by
  unfold ncount
  exact List.countP_le_length

/-- The 4-bit entry holds the whole count. -/
theorem ncount_toNat (g : Grid) (i : Nat) : (BitVec.ofNat 4 (ncount g i)).toNat = ncount g i := by
  have := ncount_le g i
  simp; omega

/-- The rule gives DEAD or ALIVE. -/
theorem rule_two_valued (b : Byte) (n : Nat) : rule b n = DEAD ∨ rule b n = ALIVE := by
  unfold rule; split_ifs <;> simp

/-- The count phase over any cells without repetition reads the grid and writes the interior counts. -/
theorem countFold (l : List Nat) (s : State) (hl : ∀ i ∈ l, i < N) :
    let t := l.foldl countCell s
    (∀ i, count t.C i =
      if i ∈ l ∧ interior i = true then BitVec.ofNat 4 (ncount s.G i) else count s.C i) ∧
    t = { s with C := t.C } := by
  induction l generalizing s with
  | nil => simp
  | cons a l ih =>
    have hG : (countCell s a).G = s.G := by unfold countCell; split <;> rfl
    obtain ⟨h1, h2⟩ := ih (countCell s a) fun i hi => hl i (List.mem_cons_of_mem _ hi)
    have ha : a < N := hl a (List.mem_cons_self)
    simp only [List.foldl_cons]
    set u := l.foldl countCell (countCell s a) with hu
    constructor
    · intro i
      rw [h1 i, hG]
      by_cases hil : i ∈ l ∧ interior i = true
      · simp [hil]
      · rw [if_neg hil]
        unfold countCell
        by_cases hai : interior a = true
        · rw [if_pos hai, count_setCount]
          by_cases hia : i = a
          · subst hia; simp [ha, hai]
          · simp only [hia, and_false, if_false, List.mem_cons, false_or]
            rw [if_neg hil]
        · rw [if_neg hai]
          have : ¬ (i ∈ a :: l ∧ interior i = true) := by
            rintro ⟨h, h'⟩
            rcases List.mem_cons.1 h with rfl | h
            · exact hai h'
            · exact hil ⟨h, h'⟩
          rw [if_neg this]
    · rw [h2]
      unfold countCell setCount
      split <;> rfl

/-- The apply phase over cells without repetition updates each interior cell from its own state and
count. -/
theorem applyFold (l : List Nat) (s : State) (hl : ∀ i ∈ l, i < N) (hd : l.Nodup) :
    let t := l.foldl applyCell s
    (∀ i, cell t.G i =
      if i ∈ l ∧ interior i = true then rule (cell s.G i) (count s.C i).toNat else cell s.G i) ∧
    t = { s with G := t.G } := by
  induction l generalizing s with
  | nil => simp
  | cons a l ih =>
    obtain ⟨hal, hd'⟩ := List.nodup_cons.1 hd
    have hC : (applyCell s a).C = s.C := by unfold applyCell; split <;> rfl
    obtain ⟨h1, h2⟩ := ih (applyCell s a) (fun i hi => hl i (List.mem_cons_of_mem _ hi)) hd'
    have ha : a < N := hl a (List.mem_cons_self)
    have hcell : ∀ i, cell (applyCell s a).G i =
        if i = a ∧ interior a = true then rule (cell s.G a) (count s.C a).toNat else cell s.G i := by
      intro i
      unfold applyCell
      by_cases hai : interior a = true
      · rw [if_pos hai, cell_setCell]; simp [ha, hai]
      · rw [if_neg hai]; simp [hai]
    simp only [List.foldl_cons]
    set u := l.foldl applyCell (applyCell s a) with hu
    constructor
    · intro i
      rw [h1 i, hcell i, hC]
      by_cases hia : i = a
      · subst hia
        simp [hal]
      · simp [hia]
    · rw [h2]
      unfold applyCell setCell
      split <;> rfl

/-- The counts after the count phase. -/
theorem countPhase_count (s : State) {i : Nat} (hi : i < N) :
    count (countPhase s).C i =
      if interior i = true then BitVec.ofNat 4 (ncount s.G i) else count s.C i := by
  unfold countPhase
  have h := (countFold (List.range N) s fun i hi => List.mem_range.1 hi).1 i
  simp only [List.mem_range, hi, true_and] at h
  exact h

/-- The count phase changes `C` only. -/
theorem countPhase_frame (s : State) : countPhase s = { s with C := (countPhase s).C } := by
  unfold countPhase
  exact (countFold (List.range N) s fun _ hi => List.mem_range.1 hi).2

/-- The grid after the apply phase. -/
theorem applyPhase_cell (s : State) {i : Nat} (hi : i < N) :
    cell (applyPhase s).G i =
      if interior i = true then rule (cell s.G i) (count s.C i).toNat else cell s.G i := by
  unfold applyPhase
  have h := (applyFold (List.range N) s (fun i hi => List.mem_range.1 hi) List.nodup_range).1 i
  simp only [List.mem_range, hi, true_and] at h
  exact h

/-- The apply phase changes `G` only. -/
theorem applyPhase_frame (s : State) : applyPhase s = { s with G := (applyPhase s).G } := by
  unfold applyPhase
  exact (applyFold (List.range N) s (fun _ hi => List.mem_range.1 hi) List.nodup_range).2

/-- The counts after one generation: the neighbour counts of the grid before it (43_evolver.md R212). -/
theorem evolveBody_count (s : State) {i : Nat} (hi : i < N) :
    count (evolveBody s).C i =
      if interior i = true then BitVec.ofNat 4 (ncount s.G i) else count s.C i := by
  have h : (evolveBody s).C = (countPhase s).C := by
    rw [evolveBody, bumpGenCount_C, applyPhase_frame]
  rw [h, countPhase_count s hi]

/-- The grid after one generation. -/
theorem evolveBody_cell (s : State) {i : Nat} (hi : i < N) :
    cell (evolveBody s).G i =
      if interior i = true then rule (cell s.G i) (ncount s.G i) else cell s.G i := by
  have hG : (countPhase s).G = s.G := by rw [countPhase_frame]
  have h : (evolveBody s).G = (applyPhase (countPhase s)).G := by
    rw [evolveBody, bumpGenCount_G]
  rw [h, applyPhase_cell _ hi, hG, countPhase_count s hi]
  cases hint : interior i
  · simp
  · simp only [if_true]; rw [ncount_toNat]

/-- One generation changes `G`, `C` and GEN_COUNT only. -/
theorem evolveBody_frame (s : State) :
    evolveBody s =
      { s with G := (evolveBody s).G, C := (evolveBody s).C, genCount := s.genCount + 1#16 } := by
  obtain ⟨g, hg⟩ : ∃ g, applyPhase (countPhase s) = { countPhase s with G := g } :=
    ⟨_, applyPhase_frame _⟩
  obtain ⟨b, hb⟩ : ∃ b, countPhase s = { s with C := b } := ⟨_, countPhase_frame s⟩
  have h : evolveBody s = { s with G := g, C := b, genCount := s.genCount + 1#16 } := by
    rw [evolveBody, hg, hb]; rfl
  rw [h]

/-! ## RENDER -/

/-- Issuing display writes changes the display memory and the record of writes only. -/
theorem dispWrites_eq (ws : List DispW) (s : State) :
    dispWrites ws s =
      { s with
        display := ws.foldl (fun m w => Memory.write m w.off.toNat w.data) s.display
        dispTrace := ws.reverse ++ s.dispTrace } := by
  unfold dispWrites
  induction ws generalizing s with
  | nil => simp
  | cons w ws ih => rw [List.foldl_cons, ih]; simp [dispWrite]

/-- Writes inside the display region keep the memory's canonical form. -/
theorem writes_wf (ws : List DispW) (m : Memory) (hw : ∀ w ∈ ws, w.off.toNat < DISP_BYTES)
    (h : Memory.wf m) : Memory.wf (ws.foldl (fun m w => Memory.write m w.off.toNat w.data) m) := by
  induction ws generalizing m with
  | nil => exact h
  | cons w ws ih =>
    exact ih _ (fun x hx => hw x (List.mem_cons_of_mem _ hx))
      (Memory.write_wf _ (hw w List.mem_cons_self) h)

/-- Every display offset the block emits is below DISP_BYTES (42_renderer.md R180). -/
theorem renderWrites_off (g : Grid) {w : DispW} (h : w ∈ renderWrites g) :
    w.off.toNat < DISP_BYTES := by
  unfold renderWrites at h
  simp only [List.mem_flatMap, List.mem_range, renderCell, List.mem_cons,
    List.not_mem_nil, or_false] at h
  obtain ⟨i, hi, rfl | rfl⟩ := h <;> simp only [DISP_BYTES, N, W, H, BitVec.toNat_ofNat] at * <;> omega

/-- One RENDER issues 4000 writes (42_renderer.md R182). -/
theorem renderWrites_length (g : Grid) : (renderWrites g).length = DISP_BYTES := by
  unfold renderWrites
  simp [renderCell, List.length_flatMap, DISP_BYTES, Nat.mul_comm]

/-- The `k`-th display write of a RENDER, counting from 0 (42_renderer.md R182). -/
theorem renderWrites_eq_map (g : Grid) :
    renderWrites g = (List.range DISP_BYTES).map fun k =>
      (⟨BitVec.ofNat 12 k, if k % 2 = 0 then SPACE else cell g (k / 2)⟩ : DispW) := by
  have key : ∀ n, (List.range n).flatMap (renderCell g) = (List.range (2 * n)).map fun k =>
      (⟨BitVec.ofNat 12 k, if k % 2 = 0 then SPACE else cell g (k / 2)⟩ : DispW) := by
    intro n
    induction n with
    | zero => rfl
    | succ n ih =>
      rw [List.range_succ, List.flatMap_append, ih, show 2 * (n + 1) = 2 * n + 1 + 1 by omega,
        List.range_succ, List.range_succ]
      simp [renderCell]
      congr 1; omega
  unfold renderWrites
  exact key N

/-- The display memory after the writes of the cells below `n`. -/
theorem renderUpto_read (g : Grid) (m : Memory) (n : Nat) (hn : n ≤ N) (a : Nat) :
    Memory.read? (((List.range n).flatMap (renderCell g)).foldl
        (fun m w => Memory.write m w.off.toNat w.data) m) a =
      if a < 2 * n then some (if a % 2 = 0 then SPACE else cell g (a / 2)) else Memory.read? m a := by
  induction n with
  | zero => simp
  | succ n ih =>
    have h1 : 2 * n % 4096 = 2 * n := by simp only [N, W, H] at hn; omega
    have h2 : (2 * n + 1) % 4096 = 2 * n + 1 := by simp only [N, W, H] at hn; omega
    rw [List.range_succ, List.flatMap_append, List.foldl_append]
    simp only [List.flatMap_cons, List.flatMap_nil, List.append_nil, renderCell, List.foldl_cons,
      List.foldl_nil, Memory.read?_write, BitVec.toNat_ofNat, Nat.reducePow, h1, h2, ih (by omega)]
    by_cases ha : a = 2 * n + 1
    · subst ha
      rw [if_pos rfl, if_pos (by omega), if_neg (by omega)]
      congr 2; omega
    · rw [if_neg ha]
      by_cases hb : a = 2 * n
      · subst hb
        rw [if_pos rfl, if_pos (by omega), if_pos (by omega)]
      · rw [if_neg hb]
        by_cases hc : a < 2 * n
        · have hd : a < 2 * (n + 1) := by omega
          rw [if_pos hc, if_pos hd]
        · have hd : ¬ a < 2 * (n + 1) := by omega
          rw [if_neg hc, if_neg hd]

/-- The display after a RENDER body: character and attribute of every cell, nothing else touched
(42_renderer.md R184). -/
theorem renderBody_read (s : State) (a : Nat) :
    Memory.read? (renderBody s).display a =
      if a < DISP_BYTES then some (if a % 2 = 0 then SPACE else cell s.G (a / 2))
      else Memory.read? s.display a := by
  have h : (renderBody s).display =
      (renderWrites s.G).foldl (fun m w => Memory.write m w.off.toNat w.data) s.display := by
    simp only [renderBody, dispWrites_eq]
  rw [h]
  unfold renderWrites
  exact renderUpto_read s.G s.display N (Nat.le_refl _) a

/-- The RENDER body changes the display and the record of its writes only (42_renderer.md R183). -/
theorem renderBody_frame (s : State) :
    renderBody s =
      { s with
        display := (renderBody s).display
        dispTrace := (renderWrites s.G).reverse ++ s.dispTrace } := by
  simp only [renderBody, dispWrites_eq]

/-- The RENDER body keeps the display memory's canonical form. -/
theorem renderBody_wf {s : State} (h : Memory.wf s.display) : Memory.wf (renderBody s).display := by
  simp only [renderBody, dispWrites_eq]
  exact writes_wf _ _ (fun _ hw => renderWrites_off _ hw) h

end Sys2Proof.Machine
end

