-- ==== Sys2Proof/Laws/EngineFields.lean ====
section
/-! SUPPORT. The fields of every engine loop, one lemma per field. The loops run over 2000 cells, so a
proof must never make Lean compute them: cite these lemmas, and never let `rfl` or `exact` compare a
state that contains a loop with another one field by field. -/

namespace Sys2Proof.Machine

open Sys2Proof.Config

/-! ### A state that differs only in what an engine operation may write -/

section

variable {s t : State} {x : Word} {g : Grid} {b : Counts} {n : Word} {d : Memory} {tr : List DispW}

theorem engineFrame_S
    (h : t = { s with S := x, G := g, C := b, genCount := n, display := d, dispTrace := tr }) :
    t.S = x := by
  subst h; rfl

theorem engineFrame_G
    (h : t = { s with S := x, G := g, C := b, genCount := n, display := d, dispTrace := tr }) :
    t.G = g := by
  subst h; rfl

theorem engineFrame_C
    (h : t = { s with S := x, G := g, C := b, genCount := n, display := d, dispTrace := tr }) :
    t.C = b := by
  subst h; rfl

theorem engineFrame_cellAddr
    (h : t = { s with S := x, G := g, C := b, genCount := n, display := d, dispTrace := tr }) :
    t.cellAddr = s.cellAddr := by
  subst h; rfl

theorem engineFrame_genCount
    (h : t = { s with S := x, G := g, C := b, genCount := n, display := d, dispTrace := tr }) :
    t.genCount = n := by
  subst h; rfl

theorem engineFrame_genLimit
    (h : t = { s with S := x, G := g, C := b, genCount := n, display := d, dispTrace := tr }) :
    t.genLimit = s.genLimit := by
  subst h; rfl

theorem engineFrame_busy
    (h : t = { s with S := x, G := g, C := b, genCount := n, display := d, dispTrace := tr }) :
    t.busy = s.busy := by
  subst h; rfl

theorem engineFrame_running
    (h : t = { s with S := x, G := g, C := b, genCount := n, display := d, dispTrace := tr }) :
    t.running = s.running := by
  subst h; rfl

theorem engineFrame_stopPend
    (h : t = { s with S := x, G := g, C := b, genCount := n, display := d, dispTrace := tr }) :
    t.stopPend = s.stopPend := by
  subst h; rfl

theorem engineFrame_err
    (h : t = { s with S := x, G := g, C := b, genCount := n, display := d, dispTrace := tr }) :
    t.err = s.err := by
  subst h; rfl

theorem engineFrame_errcode
    (h : t = { s with S := x, G := g, C := b, genCount := n, display := d, dispTrace := tr }) :
    t.errcode = s.errcode := by
  subst h; rfl

theorem engineFrame_op
    (h : t = { s with S := x, G := g, C := b, genCount := n, display := d, dispTrace := tr }) :
    t.op = s.op := by
  subst h; rfl

theorem engineFrame_runLeft
    (h : t = { s with S := x, G := g, C := b, genCount := n, display := d, dispTrace := tr }) :
    t.runLeft = s.runLeft := by
  subst h; rfl

theorem engineFrame_runInf
    (h : t = { s with S := x, G := g, C := b, genCount := n, display := d, dispTrace := tr }) :
    t.runInf = s.runInf := by
  subst h; rfl

theorem engineFrame_display
    (h : t = { s with S := x, G := g, C := b, genCount := n, display := d, dispTrace := tr }) :
    t.display = d := by
  subst h; rfl

theorem engineFrame_dispTrace
    (h : t = { s with S := x, G := g, C := b, genCount := n, display := d, dispTrace := tr }) :
    t.dispTrace = tr := by
  subst h; rfl

theorem engineFrame_hRdata
    (h : t = { s with S := x, G := g, C := b, genCount := n, display := d, dispTrace := tr }) :
    t.hRdata = s.hRdata := by
  subst h; rfl

theorem engineFrame_inputs
    (h : t = { s with S := x, G := g, C := b, genCount := n, display := d, dispTrace := tr }) :
    t.inputs = s.inputs := by
  subst h; rfl

theorem engineFrame_freeReads
    (h : t = { s with S := x, G := g, C := b, genCount := n, display := d, dispTrace := tr }) :
    t.freeReads = s.freeReads := by
  subst h; rfl

theorem engineFrame_powerUps
    (h : t = { s with S := x, G := g, C := b, genCount := n, display := d, dispTrace := tr }) :
    t.powerUps = s.powerUps := by
  subst h; rfl

end

variable (s : State)

/-! ### initCells -/

@[simp] theorem initCells_cellAddr : (initCells s).cellAddr = s.cellAddr :=
  engineFrame_cellAddr (initCells_frame s)

@[simp] theorem initCells_genCount : (initCells s).genCount = s.genCount :=
  engineFrame_genCount (initCells_frame s)

@[simp] theorem initCells_genLimit : (initCells s).genLimit = s.genLimit :=
  engineFrame_genLimit (initCells_frame s)

@[simp] theorem initCells_busy : (initCells s).busy = s.busy :=
  engineFrame_busy (initCells_frame s)

@[simp] theorem initCells_running : (initCells s).running = s.running :=
  engineFrame_running (initCells_frame s)

@[simp] theorem initCells_stopPend : (initCells s).stopPend = s.stopPend :=
  engineFrame_stopPend (initCells_frame s)

@[simp] theorem initCells_err : (initCells s).err = s.err :=
  engineFrame_err (initCells_frame s)

@[simp] theorem initCells_errcode : (initCells s).errcode = s.errcode :=
  engineFrame_errcode (initCells_frame s)

@[simp] theorem initCells_op : (initCells s).op = s.op :=
  engineFrame_op (initCells_frame s)

@[simp] theorem initCells_runLeft : (initCells s).runLeft = s.runLeft :=
  engineFrame_runLeft (initCells_frame s)

@[simp] theorem initCells_runInf : (initCells s).runInf = s.runInf :=
  engineFrame_runInf (initCells_frame s)

@[simp] theorem initCells_display : (initCells s).display = s.display :=
  engineFrame_display (initCells_frame s)

@[simp] theorem initCells_dispTrace : (initCells s).dispTrace = s.dispTrace :=
  engineFrame_dispTrace (initCells_frame s)

@[simp] theorem initCells_hRdata : (initCells s).hRdata = s.hRdata :=
  engineFrame_hRdata (initCells_frame s)

@[simp] theorem initCells_inputs : (initCells s).inputs = s.inputs :=
  engineFrame_inputs (initCells_frame s)

@[simp] theorem initCells_freeReads : (initCells s).freeReads = s.freeReads :=
  engineFrame_freeReads (initCells_frame s)

@[simp] theorem initCells_powerUps : (initCells s).powerUps = s.powerUps :=
  engineFrame_powerUps (initCells_frame s)

/-! ### clearCells -/

@[simp] theorem clearCells_S : (clearCells s).S = s.S :=
  engineFrame_S (clearCells_eq s)

@[simp] theorem clearCells_G : (clearCells s).G = Vector.replicate N DEAD :=
  engineFrame_G (clearCells_eq s)

@[simp] theorem clearCells_C : (clearCells s).C = Vector.replicate N 0#4 :=
  engineFrame_C (clearCells_eq s)

@[simp] theorem clearCells_cellAddr : (clearCells s).cellAddr = s.cellAddr :=
  engineFrame_cellAddr (clearCells_eq s)

@[simp] theorem clearCells_genCount : (clearCells s).genCount = s.genCount :=
  engineFrame_genCount (clearCells_eq s)

@[simp] theorem clearCells_genLimit : (clearCells s).genLimit = s.genLimit :=
  engineFrame_genLimit (clearCells_eq s)

@[simp] theorem clearCells_busy : (clearCells s).busy = s.busy :=
  engineFrame_busy (clearCells_eq s)

@[simp] theorem clearCells_running : (clearCells s).running = s.running :=
  engineFrame_running (clearCells_eq s)

@[simp] theorem clearCells_stopPend : (clearCells s).stopPend = s.stopPend :=
  engineFrame_stopPend (clearCells_eq s)

@[simp] theorem clearCells_err : (clearCells s).err = s.err :=
  engineFrame_err (clearCells_eq s)

@[simp] theorem clearCells_errcode : (clearCells s).errcode = s.errcode :=
  engineFrame_errcode (clearCells_eq s)

@[simp] theorem clearCells_op : (clearCells s).op = s.op :=
  engineFrame_op (clearCells_eq s)

@[simp] theorem clearCells_runLeft : (clearCells s).runLeft = s.runLeft :=
  engineFrame_runLeft (clearCells_eq s)

@[simp] theorem clearCells_runInf : (clearCells s).runInf = s.runInf :=
  engineFrame_runInf (clearCells_eq s)

@[simp] theorem clearCells_display : (clearCells s).display = s.display :=
  engineFrame_display (clearCells_eq s)

@[simp] theorem clearCells_dispTrace : (clearCells s).dispTrace = s.dispTrace :=
  engineFrame_dispTrace (clearCells_eq s)

@[simp] theorem clearCells_hRdata : (clearCells s).hRdata = s.hRdata :=
  engineFrame_hRdata (clearCells_eq s)

@[simp] theorem clearCells_inputs : (clearCells s).inputs = s.inputs :=
  engineFrame_inputs (clearCells_eq s)

@[simp] theorem clearCells_freeReads : (clearCells s).freeReads = s.freeReads :=
  engineFrame_freeReads (clearCells_eq s)

@[simp] theorem clearCells_powerUps : (clearCells s).powerUps = s.powerUps :=
  engineFrame_powerUps (clearCells_eq s)

/-! ### evolveBody -/

@[simp] theorem evolveBody_S : (evolveBody s).S = s.S :=
  engineFrame_S (evolveBody_frame s)

@[simp] theorem evolveBody_cellAddr : (evolveBody s).cellAddr = s.cellAddr :=
  engineFrame_cellAddr (evolveBody_frame s)

@[simp] theorem evolveBody_genCount : (evolveBody s).genCount = s.genCount + 1#16 :=
  engineFrame_genCount (evolveBody_frame s)

@[simp] theorem evolveBody_genLimit : (evolveBody s).genLimit = s.genLimit :=
  engineFrame_genLimit (evolveBody_frame s)

@[simp] theorem evolveBody_busy : (evolveBody s).busy = s.busy :=
  engineFrame_busy (evolveBody_frame s)

@[simp] theorem evolveBody_running : (evolveBody s).running = s.running :=
  engineFrame_running (evolveBody_frame s)

@[simp] theorem evolveBody_stopPend : (evolveBody s).stopPend = s.stopPend :=
  engineFrame_stopPend (evolveBody_frame s)

@[simp] theorem evolveBody_err : (evolveBody s).err = s.err :=
  engineFrame_err (evolveBody_frame s)

@[simp] theorem evolveBody_errcode : (evolveBody s).errcode = s.errcode :=
  engineFrame_errcode (evolveBody_frame s)

@[simp] theorem evolveBody_op : (evolveBody s).op = s.op :=
  engineFrame_op (evolveBody_frame s)

@[simp] theorem evolveBody_runLeft : (evolveBody s).runLeft = s.runLeft :=
  engineFrame_runLeft (evolveBody_frame s)

@[simp] theorem evolveBody_runInf : (evolveBody s).runInf = s.runInf :=
  engineFrame_runInf (evolveBody_frame s)

@[simp] theorem evolveBody_display : (evolveBody s).display = s.display :=
  engineFrame_display (evolveBody_frame s)

@[simp] theorem evolveBody_dispTrace : (evolveBody s).dispTrace = s.dispTrace :=
  engineFrame_dispTrace (evolveBody_frame s)

@[simp] theorem evolveBody_hRdata : (evolveBody s).hRdata = s.hRdata :=
  engineFrame_hRdata (evolveBody_frame s)

@[simp] theorem evolveBody_inputs : (evolveBody s).inputs = s.inputs :=
  engineFrame_inputs (evolveBody_frame s)

@[simp] theorem evolveBody_freeReads : (evolveBody s).freeReads = s.freeReads :=
  engineFrame_freeReads (evolveBody_frame s)

@[simp] theorem evolveBody_powerUps : (evolveBody s).powerUps = s.powerUps :=
  engineFrame_powerUps (evolveBody_frame s)

/-! ### dispWrites -/

@[simp] theorem dispWrites_S (ws : List DispW) : (dispWrites ws s).S = s.S :=
  engineFrame_S (dispWrites_eq ws s)

@[simp] theorem dispWrites_G (ws : List DispW) : (dispWrites ws s).G = s.G :=
  engineFrame_G (dispWrites_eq ws s)

@[simp] theorem dispWrites_C (ws : List DispW) : (dispWrites ws s).C = s.C :=
  engineFrame_C (dispWrites_eq ws s)

@[simp] theorem dispWrites_cellAddr (ws : List DispW) : (dispWrites ws s).cellAddr = s.cellAddr :=
  engineFrame_cellAddr (dispWrites_eq ws s)

@[simp] theorem dispWrites_genCount (ws : List DispW) : (dispWrites ws s).genCount = s.genCount :=
  engineFrame_genCount (dispWrites_eq ws s)

@[simp] theorem dispWrites_genLimit (ws : List DispW) : (dispWrites ws s).genLimit = s.genLimit :=
  engineFrame_genLimit (dispWrites_eq ws s)

@[simp] theorem dispWrites_busy (ws : List DispW) : (dispWrites ws s).busy = s.busy :=
  engineFrame_busy (dispWrites_eq ws s)

@[simp] theorem dispWrites_running (ws : List DispW) : (dispWrites ws s).running = s.running :=
  engineFrame_running (dispWrites_eq ws s)

@[simp] theorem dispWrites_stopPend (ws : List DispW) : (dispWrites ws s).stopPend = s.stopPend :=
  engineFrame_stopPend (dispWrites_eq ws s)

@[simp] theorem dispWrites_err (ws : List DispW) : (dispWrites ws s).err = s.err :=
  engineFrame_err (dispWrites_eq ws s)

@[simp] theorem dispWrites_errcode (ws : List DispW) : (dispWrites ws s).errcode = s.errcode :=
  engineFrame_errcode (dispWrites_eq ws s)

@[simp] theorem dispWrites_op (ws : List DispW) : (dispWrites ws s).op = s.op :=
  engineFrame_op (dispWrites_eq ws s)

@[simp] theorem dispWrites_runLeft (ws : List DispW) : (dispWrites ws s).runLeft = s.runLeft :=
  engineFrame_runLeft (dispWrites_eq ws s)

@[simp] theorem dispWrites_runInf (ws : List DispW) : (dispWrites ws s).runInf = s.runInf :=
  engineFrame_runInf (dispWrites_eq ws s)

@[simp] theorem dispWrites_display (ws : List DispW) : (dispWrites ws s).display = ws.foldl (fun m w => Memory.write m w.off.toNat w.data) s.display :=
  engineFrame_display (dispWrites_eq ws s)

@[simp] theorem dispWrites_dispTrace (ws : List DispW) : (dispWrites ws s).dispTrace = ws.reverse ++ s.dispTrace :=
  engineFrame_dispTrace (dispWrites_eq ws s)

@[simp] theorem dispWrites_hRdata (ws : List DispW) : (dispWrites ws s).hRdata = s.hRdata :=
  engineFrame_hRdata (dispWrites_eq ws s)

@[simp] theorem dispWrites_inputs (ws : List DispW) : (dispWrites ws s).inputs = s.inputs :=
  engineFrame_inputs (dispWrites_eq ws s)

@[simp] theorem dispWrites_freeReads (ws : List DispW) : (dispWrites ws s).freeReads = s.freeReads :=
  engineFrame_freeReads (dispWrites_eq ws s)

@[simp] theorem dispWrites_powerUps (ws : List DispW) : (dispWrites ws s).powerUps = s.powerUps :=
  engineFrame_powerUps (dispWrites_eq ws s)

/-! ### renderBody -/

@[simp] theorem renderBody_S : (renderBody s).S = s.S :=
  engineFrame_S (renderBody_frame s)

@[simp] theorem renderBody_G : (renderBody s).G = s.G :=
  engineFrame_G (renderBody_frame s)

@[simp] theorem renderBody_C : (renderBody s).C = s.C :=
  engineFrame_C (renderBody_frame s)

@[simp] theorem renderBody_cellAddr : (renderBody s).cellAddr = s.cellAddr :=
  engineFrame_cellAddr (renderBody_frame s)

@[simp] theorem renderBody_genCount : (renderBody s).genCount = s.genCount :=
  engineFrame_genCount (renderBody_frame s)

@[simp] theorem renderBody_genLimit : (renderBody s).genLimit = s.genLimit :=
  engineFrame_genLimit (renderBody_frame s)

@[simp] theorem renderBody_busy : (renderBody s).busy = s.busy :=
  engineFrame_busy (renderBody_frame s)

@[simp] theorem renderBody_running : (renderBody s).running = s.running :=
  engineFrame_running (renderBody_frame s)

@[simp] theorem renderBody_stopPend : (renderBody s).stopPend = s.stopPend :=
  engineFrame_stopPend (renderBody_frame s)

@[simp] theorem renderBody_err : (renderBody s).err = s.err :=
  engineFrame_err (renderBody_frame s)

@[simp] theorem renderBody_errcode : (renderBody s).errcode = s.errcode :=
  engineFrame_errcode (renderBody_frame s)

@[simp] theorem renderBody_op : (renderBody s).op = s.op :=
  engineFrame_op (renderBody_frame s)

@[simp] theorem renderBody_runLeft : (renderBody s).runLeft = s.runLeft :=
  engineFrame_runLeft (renderBody_frame s)

@[simp] theorem renderBody_runInf : (renderBody s).runInf = s.runInf :=
  engineFrame_runInf (renderBody_frame s)

@[simp] theorem renderBody_dispTrace : (renderBody s).dispTrace = (renderWrites s.G).reverse ++ s.dispTrace :=
  engineFrame_dispTrace (renderBody_frame s)

@[simp] theorem renderBody_hRdata : (renderBody s).hRdata = s.hRdata :=
  engineFrame_hRdata (renderBody_frame s)

@[simp] theorem renderBody_inputs : (renderBody s).inputs = s.inputs :=
  engineFrame_inputs (renderBody_frame s)

@[simp] theorem renderBody_freeReads : (renderBody s).freeReads = s.freeReads :=
  engineFrame_freeReads (renderBody_frame s)

@[simp] theorem renderBody_powerUps : (renderBody s).powerUps = s.powerUps :=
  engineFrame_powerUps (renderBody_frame s)

/-- The display memory after a RENDER body depends on the grid and the old memory only. -/
theorem renderBody_display :
    (renderBody s).display =
      (renderWrites s.G).foldl (fun m w => Memory.write m w.off.toNat w.data) s.display := by
  unfold renderBody
  rw [dispWrites_display]

/-- The grid and the counts after a generation depend on the grid and the counts before it only. -/
theorem evolveBody_congr {s t : State} (hG : s.G = t.G) (hC : s.C = t.C) :
    (evolveBody s).G = (evolveBody t).G ∧ (evolveBody s).C = (evolveBody t).C := by
  constructor
  · refine grid_ext fun i hi => ?_
    rw [evolveBody_cell s hi, evolveBody_cell t hi, hG]
  · refine counts_ext fun i hi => ?_
    rw [evolveBody_count s hi, evolveBody_count t hi, hG, hC]

/-- What INIT writes depends on `S` only. -/
theorem initCells_congr {s t : State} (h : s.S = t.S) :
    (initCells s).G = (initCells t).G ∧ (initCells s).C = (initCells t).C := by
  constructor
  · refine grid_ext fun i hi => ?_
    rw [initCells_cell s hi, initCells_cell t hi, h]
  · refine counts_ext fun i hi => ?_
    rw [initCells_count s hi, initCells_count t hi]

/-! ### The four operations as one update each -/

/-- INIT as one update: what it leaves alone is read off the record (41_initializer.md R161). -/
theorem performInit_eq :
    performInit s =
      { s with
        S := lfsrNext^[NI] s.S, G := (initCells s).G, C := (initCells s).C
        genCount := 0#16, op := .none, busy := false } := by
  have key : ∀ {t : State} {x g b}, t = { s with S := x, G := g, C := b } →
      finishOp (zeroGenCount t) =
        { s with S := x, G := g, C := b, genCount := 0#16, op := .none, busy := false } := by
    rintro t x g b rfl; rfl
  have h := initCells_frame s
  rw [initCells_S] at h
  exact key h

/-- CLEAR as one update (R171). -/
theorem performClear_eq :
    performClear s =
      { s with
        G := Vector.replicate N DEAD, C := Vector.replicate N 0#4
        genCount := 0#16, op := .none, busy := false } := by
  have key : ∀ {t : State} {g b}, t = { s with G := g, C := b } →
      finishOp (zeroGenCount t) =
        { s with G := g, C := b, genCount := 0#16, op := .none, busy := false } := by
    rintro t g b rfl; rfl
  exact key (clearCells_eq s)

/-- EVOLVE as one update (43_evolver.md R201). -/
theorem performEvolve_eq :
    performEvolve s =
      { s with
        G := (evolveBody s).G, C := (evolveBody s).C
        genCount := s.genCount + 1#16, op := .none, busy := false } := by
  have key : ∀ {t : State} {g b n}, t = { s with G := g, C := b, genCount := n } →
      finishOp t = { s with G := g, C := b, genCount := n, op := .none, busy := false } := by
    rintro t g b n rfl; rfl
  exact key (evolveBody_frame s)

/-- RENDER as one update (42_renderer.md R182, R183). -/
theorem performRender_eq :
    performRender s =
      { s with
        display := (renderBody s).display
        dispTrace := (renderWrites s.G).reverse ++ s.dispTrace
        op := .none, busy := false } := by
  have key : ∀ {t : State} {d tr}, t = { s with display := d, dispTrace := tr } →
      finishOp t = { s with display := d, dispTrace := tr, op := .none, busy := false } := by
    rintro t d tr rfl; rfl
  exact key (renderBody_frame s)

/-- One RUN iteration before its count: a RENDER, then a generation, as one update
(44_mainloop.md R242). -/
theorem iteration_eq :
    evolveBody (renderBody s) =
      { s with
        G := (evolveBody (renderBody s)).G, C := (evolveBody (renderBody s)).C
        genCount := s.genCount + 1#16, display := (renderBody s).display
        dispTrace := (renderWrites s.G).reverse ++ s.dispTrace } := by
  have key : ∀ {t u : State} {d tr g b}, t = { s with display := d, dispTrace := tr } →
      u = { t with G := g, C := b, genCount := t.genCount + 1#16 } →
      u = { s with
        G := g, C := b, genCount := s.genCount + 1#16, display := d, dispTrace := tr } := by
    rintro t u d tr g b rfl rfl; rfl
  exact key (renderBody_frame s) (evolveBody_frame _)

/-- The return of power resets the block and forgets the display; the record of display writes grows by
a prefix of those of the operation in progress (log 19). -/
theorem powerUp_eq (issued : Nat) (s : State) :
    powerUp issued s =
      { resetBlock s with
        display := [], dispTrace := (interrupt issued s).dispTrace, powerUps := s.powerUps + 1 } := by
  unfold powerUp hardReset
  rcases interrupt_cases issued s with ⟨_, e⟩ | ⟨_, e⟩ <;> rw [e]
  · rw [dispWrites_eq]; rfl
  · rfl

/-! ### A whole state from its fields -/

/-- Two states with the same fields are equal. -/
theorem state_ext {s t : State} (h_S : s.S = t.S) (h_G : s.G = t.G) (h_C : s.C = t.C)
    (h_cellAddr : s.cellAddr = t.cellAddr) (h_genCount : s.genCount = t.genCount) (h_genLimit :
    s.genLimit = t.genLimit) (h_busy : s.busy = t.busy) (h_running : s.running = t.running)
    (h_stopPend : s.stopPend = t.stopPend) (h_err : s.err = t.err) (h_errcode : s.errcode =
    t.errcode) (h_op : s.op = t.op) (h_runLeft : s.runLeft = t.runLeft) (h_runInf : s.runInf =
    t.runInf) (h_display : s.display = t.display) (h_dispTrace : s.dispTrace = t.dispTrace)
    (h_hRdata : s.hRdata = t.hRdata) (h_inputs : s.inputs = t.inputs) (h_freeReads : s.freeReads
    = t.freeReads) (h_powerUps : s.powerUps = t.powerUps) : s = t := by
  cases s; cases t
  simp only [State.mk.injEq]
  exact ⟨h_S, h_G, h_C, h_cellAddr, h_genCount, h_genLimit, h_busy, h_running, h_stopPend,
    h_err, h_errcode, h_op, h_runLeft, h_runInf, h_display, h_dispTrace, h_hRdata, h_inputs,
    h_freeReads, h_powerUps⟩

end Sys2Proof.Machine
end

