-- ==== Sys2Proof/Laws/PerInstr.lean ====
section
/-! SUPPORT. Statements for all instructions, one lemma per constructor of `Instr`. -/

namespace Sys2Proof.Laws.EncodedRow

/-- The word of a well-formed instruction matches the opcode-table row of its own mnemonic
(30_encoding.md R111, spec/opcode_table.json). -/
def Statement (i : Instr) : Prop :=
  i.wellFormed = true → ∃ r ∈ opcodeTable, r.mnemonic = i.mnemonic ∧ r.hits (encode i) = true

/-- A row whose mask fixes RW and REG only is hit by every write to that register. -/
theorem hits_write (name : String) (reg : BitVec 3) (d : Word) :
    TableRow.hits ⟨name, writeWord reg 0#16, 0xF0000#20⟩ (writeWord reg d) = true := by
  simp [TableRow.hits, writeWord_and_head]

theorem rdCmd : Statement .rdCmd := by unfold Statement; decide
theorem rdStatus : Statement .rdStatus := by unfold Statement; decide
theorem rdPrngState : Statement .rdPrngState := by unfold Statement; decide
theorem rdCellAddr : Statement .rdCellAddr := by unfold Statement; decide
theorem rdCellData : Statement .rdCellData := by unfold Statement; decide
theorem rdCountData : Statement .rdCountData := by unfold Statement; decide
theorem rdGenCount : Statement .rdGenCount := by unfold Statement; decide
theorem rdGenLimit : Statement .rdGenLimit := by unfold Statement; decide
theorem nop : Statement .nop := by unfold Statement; decide
theorem init : Statement .init := by unfold Statement; decide
theorem clear : Statement .clear := by unfold Statement; decide
theorem evolve : Statement .evolve := by unfold Statement; decide
theorem render : Statement .render := by unfold Statement; decide
theorem run : Statement .run := by unfold Statement; decide
theorem stop : Statement .stop := by unfold Statement; decide
theorem next : Statement .next := by unfold Statement; decide
theorem clrerr : Statement .clrerr := by unfold Statement; decide
theorem wrCellAddr (v : Word) : Statement (.wrCellAddr v) := fun _ =>
  ⟨_, by decide, rfl, hits_write "WR_CELL_ADDR__v" 3#3 v⟩
theorem wrCellData (v : Word) : Statement (.wrCellData v) := fun _ =>
  ⟨_, by decide, rfl, hits_write "WR_CELL_DATA__v" 4#3 v⟩
theorem wrGenLimit (v : Word) : Statement (.wrGenLimit v) := fun _ =>
  ⟨_, by decide, rfl, hits_write "WR_GEN_LIMIT__v" 7#3 v⟩
theorem wrStatus (v : Word) : Statement (.wrStatus v) := fun _ =>
  ⟨_, by decide, rfl, hits_write "WR_STATUS__v__ignored" 1#3 v⟩
theorem wrPrngState (v : Word) : Statement (.wrPrngState v) := fun _ =>
  ⟨_, by decide, rfl, hits_write "WR_PRNG_STATE__v__ignored" 2#3 v⟩
theorem wrCountData (v : Word) : Statement (.wrCountData v) := fun _ =>
  ⟨_, by decide, rfl, hits_write "WR_COUNT_DATA__v__ignored" 5#3 v⟩
theorem wrGenCount (v : Word) : Statement (.wrGenCount v) := fun _ =>
  ⟨_, by decide, rfl, hits_write "WR_GEN_COUNT__v__ignored" 6#3 v⟩
theorem illegalOp9 : Statement .illegalOp9 := by unfold Statement; decide
theorem illegalOpAB (low : BitVec 1) : Statement (.illegalOpAB low) := by
  unfold Statement; revert low; decide
theorem illegalOpCF (low : BitVec 2) : Statement (.illegalOpCF low) := by
  unfold Statement; revert low; decide
theorem illegalReserved (v : Word) : Statement (.illegalReserved v) := fun _ =>
  ⟨_, by decide, rfl, hits_write "ILLEGAL_CMD__reserved_bits_set" 0#3 v⟩

end Sys2Proof.Laws.EncodedRow
end

