-- ==== Sys2Proof/Laws/Step.lean ====
section
/-! SUPPORT. What one step is, case by case: which agent moves, what the engine does for each pending
operation, and what each transaction does while BUSY and while not. Later proofs cite these equations
and unfold neither `step`, `exec` nor `engineStep`. -/

namespace Sys2Proof.Machine

open Sys2Proof.Config

variable {s t : State}

/-! ## Which agent moves -/

theorem step_nil (h : s.inputs = []) : step s = engineStep s := by
  unfold step; rw [h]

theorem step_idle {rest : List Input} (h : s.inputs = .idle :: rest) :
    step s = engineStep (setInputs rest s) := by
  unfold step; rw [h]

theorem step_host {w : Transaction} {rest : List Input} (h : s.inputs = .host w :: rest) :
    step s = exec (decode w) (setInputs rest s) := by
  unfold step; rw [h]

theorem step_reset {k : Nat} {p : List Transaction} {rest : List Input}
    (h : s.inputs = .reset k p :: rest) : step s = .next (hardReset k (setInputs rest s)) := by
  unfold step; rw [h]

theorem step_powerCycle {k : Nat} {rest : List Input} (h : s.inputs = .powerCycle k :: rest) :
    step s = .next (powerUp k (setInputs rest s)) := by
  unfold step; rw [h]

/-- Everything a step can be. -/
theorem step_cases (s : State) :
    (s.inputs = [] ∧ step s = engineStep s) ∨
    (∃ rest, s.inputs = .idle :: rest ∧ step s = engineStep (setInputs rest s)) ∨
    (∃ w rest, s.inputs = .host w :: rest ∧ step s = exec (decode w) (setInputs rest s)) ∨
    (∃ k p rest, s.inputs = .reset k p :: rest ∧
      step s = .next (hardReset k (setInputs rest s))) ∨
    (∃ k rest, s.inputs = .powerCycle k :: rest ∧
      step s = .next (powerUp k (setInputs rest s))) := by
  rcases h : s.inputs with _ | ⟨i, rest⟩
  · exact .inl ⟨rfl, step_nil h⟩
  · cases i with
    | host w => exact .inr (.inr (.inl ⟨w, rest, rfl, step_host h⟩))
    | idle => exact .inr (.inl ⟨rest, rfl, step_idle h⟩)
    | reset k p => exact .inr (.inr (.inr (.inl ⟨k, p, rest, rfl, step_reset h⟩)))
    | powerCycle k => exact .inr (.inr (.inr (.inr ⟨k, rest, rfl, step_powerCycle h⟩)))

/-! ## Runs -/

theorem run_zero (s : State) : core.run 0 s = .next s := rfl

/-- A run goes on from the state after its first step. -/
theorem run_next {n : Nat} (h : step s = .next t) : core.run (n + 1) s = core.run n t := by
  have h' : core.step s = .next t := h
  simp only [Host.Core.run, h']

/-! ## The engine -/

theorem engineStep_idle (h : s.busy = false) : engineStep s = .next s := by
  unfold engineStep; rw [if_pos h]

theorem engineStep_init (h : s.busy = true) (ho : s.op = .init) :
    engineStep s = .next (performInit s) := by
  unfold engineStep; rw [if_neg (by simp [h]), ho]

theorem engineStep_clear (h : s.busy = true) (ho : s.op = .clear) :
    engineStep s = .next (performClear s) := by
  unfold engineStep; rw [if_neg (by simp [h]), ho]

theorem engineStep_evolve (h : s.busy = true) (ho : s.op = .evolve) :
    engineStep s = .next (performEvolve s) := by
  unfold engineStep; rw [if_neg (by simp [h]), ho]

theorem engineStep_render (h : s.busy = true) (ho : s.op = .render) :
    engineStep s = .next (performRender s) := by
  unfold engineStep; rw [if_neg (by simp [h]), ho]

theorem engineStep_run (h : s.busy = true) (ho : s.op = .run) :
    engineStep s = .next (performRunStep s) := by
  unfold engineStep; rw [if_neg (by simp [h]), ho]

theorem engineStep_none (h : s.busy = true) (ho : s.op = .none) :
    engineStep s = .fault .engineWithoutOperation := by
  unfold engineStep; rw [if_neg (by simp [h]), ho]

/-- Everything an engine step can be. -/
theorem engineStep_cases (s : State) :
    (s.busy = false ∧ engineStep s = .next s) ∨
    (s.busy = true ∧ s.op = .none ∧ engineStep s = .fault .engineWithoutOperation) ∨
    (s.busy = true ∧ s.op = .init ∧ engineStep s = .next (performInit s)) ∨
    (s.busy = true ∧ s.op = .clear ∧ engineStep s = .next (performClear s)) ∨
    (s.busy = true ∧ s.op = .evolve ∧ engineStep s = .next (performEvolve s)) ∨
    (s.busy = true ∧ s.op = .render ∧ engineStep s = .next (performRender s)) ∨
    (s.busy = true ∧ s.op = .run ∧ engineStep s = .next (performRunStep s)) := by
  cases h : s.busy
  · exact .inl ⟨rfl, engineStep_idle h⟩
  · cases ho : s.op with
    | none => exact .inr (.inl ⟨rfl, rfl, engineStep_none h ho⟩)
    | init => exact .inr (.inr (.inl ⟨rfl, rfl, engineStep_init h ho⟩))
    | clear => exact .inr (.inr (.inr (.inl ⟨rfl, rfl, engineStep_clear h ho⟩)))
    | evolve => exact .inr (.inr (.inr (.inr (.inl ⟨rfl, rfl, engineStep_evolve h ho⟩))))
    | render => exact .inr (.inr (.inr (.inr (.inr (.inl ⟨rfl, rfl, engineStep_render h ho⟩)))))
    | run => exact .inr (.inr (.inr (.inr (.inr (.inr ⟨rfl, rfl, engineStep_run h ho⟩)))))

/-! ## What the engine neither reads nor writes -/

/-- `s` with the error, what the host has read, the counter of free values and the inputs of `o`. -/
def withHostSide (s o : State) : State :=
  { s with
    err := o.err, errcode := o.errcode, hRdata := o.hRdata, inputs := o.inputs
    freeReads := o.freeReads }

theorem performInit_withHostSide (s o : State) :
    performInit (withHostSide s o) = withHostSide (performInit s) o := by
  obtain ⟨h1, h2⟩ := initCells_congr (s := withHostSide s o) (t := s) rfl
  have h := performInit_eq (withHostSide s o)
  have h' := performInit_eq s
  rw [h1, h2, show (withHostSide s o).S = s.S from rfl] at h
  generalize (initCells s).G = g at h h'
  generalize (initCells s).C = b at h h'
  generalize lfsrNext^[NI] s.S = x at h h'
  rw [h, h']; rfl

theorem performClear_withHostSide (s o : State) :
    performClear (withHostSide s o) = withHostSide (performClear s) o := by
  have h := performClear_eq (withHostSide s o)
  have h' := performClear_eq s
  generalize Vector.replicate N DEAD = g at h h'
  generalize Vector.replicate N 0#4 = b at h h'
  rw [h, h']; rfl

theorem performEvolve_withHostSide (s o : State) :
    performEvolve (withHostSide s o) = withHostSide (performEvolve s) o := by
  obtain ⟨h1, h2⟩ := evolveBody_congr (s := withHostSide s o) (t := s) rfl rfl
  rw [performEvolve_eq, performEvolve_eq, h1, h2]
  generalize (evolveBody s).G = g
  generalize (evolveBody s).C = b
  rfl

theorem renderBody_display_withHostSide (s o : State) :
    (renderBody (withHostSide s o)).display = (renderBody s).display := by
  rw [renderBody_display, renderBody_display]; rfl

theorem performRender_withHostSide (s o : State) :
    performRender (withHostSide s o) = withHostSide (performRender s) o := by
  rw [performRender_eq, performRender_eq, renderBody_display_withHostSide]
  generalize (renderBody s).display = d
  rfl

theorem iteration_withHostSide (s o : State) :
    evolveBody (renderBody (withHostSide s o)) = withHostSide (evolveBody (renderBody s)) o := by
  have hG : (renderBody (withHostSide s o)).G = (renderBody s).G := by
    rw [renderBody_G, renderBody_G]; rfl
  have hC : (renderBody (withHostSide s o)).C = (renderBody s).C := by
    rw [renderBody_C, renderBody_C]; rfl
  obtain ⟨h1, h2⟩ := evolveBody_congr hG hC
  rw [iteration_eq, iteration_eq s, h1, h2, renderBody_display_withHostSide]
  generalize (evolveBody (renderBody s)).G = g
  generalize (evolveBody (renderBody s)).C = b
  generalize (renderBody s).display = d
  rfl

theorem countIteration_withHostSide (s o : State) :
    countIteration (withHostSide s o) = withHostSide (countIteration s) o := by
  rcases countIteration_cases s with ⟨h, e⟩ | ⟨h, h0, e⟩ | ⟨h, h0, e⟩ <;> rw [e] <;>
    unfold countIteration
  · rw [if_pos (show (withHostSide s o).runInf = true from h)]
  · rw [if_neg (show ¬ (withHostSide s o).runInf = true by simp [withHostSide, h]),
      if_neg (show ¬ (withHostSide s o).runLeft - 1#16 = 0#16 from h0)]
    rfl
  · rw [if_neg (show ¬ (withHostSide s o).runInf = true by simp [withHostSide, h]),
      if_pos (show (withHostSide s o).runLeft - 1#16 = 0#16 from h0)]
    rfl

/-- The engine neither reads nor writes the error, what the host has read or the inputs: a step of it
does the same beside any of them. -/
theorem engineStep_withHostSide {s t : State} (o : State) (h : engineStep s = .next t) :
    engineStep (withHostSide s o) = .next (withHostSide t o) := by
  rcases engineStep_cases s with ⟨hb, e⟩ | ⟨_, _, e⟩ | ⟨hb, ho, e⟩ | ⟨hb, ho, e⟩ | ⟨hb, ho, e⟩ |
    ⟨hb, ho, e⟩ | ⟨hb, ho, e⟩ <;> rw [e] at h
  · injection h with h; subst h; exact engineStep_idle hb
  · cases h
  · injection h with h; rw [← h, ← performInit_withHostSide]; exact engineStep_init hb ho
  · injection h with h; rw [← h, ← performClear_withHostSide]; exact engineStep_clear hb ho
  · injection h with h; rw [← h, ← performEvolve_withHostSide]; exact engineStep_evolve hb ho
  · injection h with h; rw [← h, ← performRender_withHostSide]; exact engineStep_render hb ho
  · injection h with h
    rw [← h, engineStep_run (s := withHostSide s o) hb ho]
    unfold performRunStep
    by_cases hs : s.stopPend = true
    · rw [if_pos hs, if_pos (show (withHostSide s o).stopPend = true from hs)]; rfl
    · rw [if_neg hs, if_neg (show ¬ (withHostSide s o).stopPend = true from hs),
        iteration_withHostSide, countIteration_withHostSide]

/-! ## Transactions that BUSY excludes -/

theorem unlessBusy_idle {act : State → State} (h : s.busy = false) : unlessBusy act s = act s := by
  unfold unlessBusy; rw [if_neg (by simp [h])]

theorem unlessBusy_busy {act : State → State} (h : s.busy = true) :
    unlessBusy act s = raiseError .busy s := by
  unfold unlessBusy; rw [if_pos h]

/-- The transactions that are the BUSY gate over an action (60_exceptions.md R302). -/
inductive Gated : Instr → (State → State) → Prop where
  | init : Gated .init (acceptOp .init)
  | clear : Gated .clear (acceptOp .clear)
  | evolve : Gated .evolve (acceptOp .evolve)
  | render : Gated .render (acceptOp .render)
  | run : Gated .run acceptRun
  | next : Gated .next draw
  | wrCellAddr (v : Word) : Gated (.wrCellAddr v) (fun s => { s with cellAddr := v })
  | wrCellData (v : Word) : Gated (.wrCellData v) (writeCellData v)
  | wrGenLimit (v : Word) : Gated (.wrGenLimit v) (fun s => { s with genLimit := v })

theorem exec_gated {i : Instr} {act : State → State} (h : Gated i act) (s : State) :
    exec i s = .next (unlessBusy act s) := by
  cases h <;> rfl

/-- A gated transaction while idle performs its action. -/
theorem exec_gated_idle {i : Instr} {act : State → State} (h : Gated i act) (hb : s.busy = false) :
    exec i s = .next (act s) := by
  rw [exec_gated h, unlessBusy_idle hb]

/-- A gated transaction while BUSY raises BUSY. -/
theorem exec_gated_busy {i : Instr} {act : State → State} (h : Gated i act) (hb : s.busy = true) :
    exec i s = .next (raiseError .busy s) := by
  rw [exec_gated h, unlessBusy_busy hb]

/-- An illegal command word raises ILLEGAL_CMD. -/
theorem exec_illegal {i : Instr} (h : i = .illegalOp9 ∨ (∃ a, i = .illegalOpAB a) ∨
    (∃ a, i = .illegalOpCF a) ∨ ∃ v, i = .illegalReserved v) (s : State) :
    exec i s = .next (raiseError .illegalCmd s) := by
  rcases h with rfl | ⟨a, rfl⟩ | ⟨a, rfl⟩ | ⟨v, rfl⟩ <;> rfl

/-- Everything a transaction can do: every transaction answers a next state. -/
theorem exec_cases (i : Instr) (s : State) :
    (∃ v, exec i s = .next (answer v s)) ∨
    (∃ v, exec i s = .next (answerUnstable v s)) ∨
    exec i s = .next s ∨
    (i = .stop ∧ exec i s = .next (requestStop s)) ∨
    (i = .clrerr ∧ exec i s = .next (clearError s)) ∨
    exec i s = .next (raiseError .illegalCmd s) ∨
    ∃ act, Gated i act ∧ exec i s = .next (unlessBusy act s) := by
  cases i with
  | rdCmd => exact .inl ⟨_, rfl⟩
  | rdStatus => exact .inl ⟨_, rfl⟩
  | rdPrngState => exact .inr (.inl ⟨_, rfl⟩)
  | rdCellAddr => exact .inl ⟨_, rfl⟩
  | rdCellData => exact .inr (.inl ⟨_, rfl⟩)
  | rdCountData => exact .inr (.inl ⟨_, rfl⟩)
  | rdGenCount => exact .inl ⟨_, rfl⟩
  | rdGenLimit => exact .inl ⟨_, rfl⟩
  | nop => exact .inr (.inr (.inl rfl))
  | wrStatus v => exact .inr (.inr (.inl rfl))
  | wrPrngState v => exact .inr (.inr (.inl rfl))
  | wrCountData v => exact .inr (.inr (.inl rfl))
  | wrGenCount v => exact .inr (.inr (.inl rfl))
  | stop => exact .inr (.inr (.inr (.inl ⟨rfl, rfl⟩)))
  | clrerr => exact .inr (.inr (.inr (.inr (.inl ⟨rfl, rfl⟩))))
  | illegalOp9 => exact .inr (.inr (.inr (.inr (.inr (.inl rfl)))))
  | illegalOpAB a => exact .inr (.inr (.inr (.inr (.inr (.inl rfl)))))
  | illegalOpCF a => exact .inr (.inr (.inr (.inr (.inr (.inl rfl)))))
  | illegalReserved v => exact .inr (.inr (.inr (.inr (.inr (.inl rfl)))))
  | init => exact .inr (.inr (.inr (.inr (.inr (.inr ⟨_, .init, rfl⟩)))))
  | clear => exact .inr (.inr (.inr (.inr (.inr (.inr ⟨_, .clear, rfl⟩)))))
  | evolve => exact .inr (.inr (.inr (.inr (.inr (.inr ⟨_, .evolve, rfl⟩)))))
  | render => exact .inr (.inr (.inr (.inr (.inr (.inr ⟨_, .render, rfl⟩)))))
  | run => exact .inr (.inr (.inr (.inr (.inr (.inr ⟨_, .run, rfl⟩)))))
  | next => exact .inr (.inr (.inr (.inr (.inr (.inr ⟨_, .next, rfl⟩)))))
  | wrCellAddr v => exact .inr (.inr (.inr (.inr (.inr (.inr ⟨_, .wrCellAddr v, rfl⟩)))))
  | wrCellData v => exact .inr (.inr (.inr (.inr (.inr (.inr ⟨_, .wrCellData v, rfl⟩)))))
  | wrGenLimit v => exact .inr (.inr (.inr (.inr (.inr (.inr ⟨_, .wrGenLimit v, rfl⟩)))))

/-- Every transaction answers a next state: nothing traps (60_exceptions.md R300). -/
theorem exec_next (i : Instr) (s : State) : ∃ t, exec i s = .next t := by
  cases i <;> exact ⟨_, rfl⟩

end Sys2Proof.Machine
end

