-- ==== Sys2Proof/Tests/Slice0.lean ====
section
/-! SUPPORT. The model's own tests. Expected values come from spec/95_test_vectors.md (the vector's name
stands in the comment) or are worked out from the rule cited. The second half holds one witness for the
hypotheses of each statement of Certificates/Slice0/Obligations.lean. -/

namespace Sys2Proof.Tests

open Sys2Proof.Machine Sys2Proof.Config Sys2Proof.Claims

/-! ## Helpers -/

/-- A field of the state after transaction word `t`. -/
def after {α : Type} (t : Transaction) (s : State) (f : State → α) : Option α :=
  match exec (decode t) s with
  | .next u => some (f u)
  | .fault _ => none
  | .refused _ => none

/-- Reset, then INIT accepted and not yet performed (the start of NX-3, HA-16, HA-17, HA-18). -/
def busyInit : State := acceptOp .init State.reset

/-- Reset, then an unbounded RUN accepted (the start of RU-2). -/
def runningState : State := acceptRun State.reset

/-- Reset with CELL_ADDR = `a`. -/
def selected (a : Word) : State := { State.reset with cellAddr := a }

/-- BUSY with operation `o` pending. -/
def pending (o : Op) : State := { State.reset with busy := true, op := o }

/-- The reset grid with the cells of `l` ALIVE. -/
def gridOf (l : List Nat) : Grid := (l.foldl (fun s i => setCell i ALIVE s) State.reset).G

/-! ## WellFormed: each check refuses an ill-formed term -/

/-- A reserved-bits command without a reserved bit is no instruction (R108). -/
theorem test_illformed_reserved_refused :
    (Instr.illegalReserved 0x0005#16).wellFormed = false ∧
    (Instr.illegalReserved 0x000F#16).wellFormed = false ∧
    (Instr.illegalReserved 0x0010#16).wellFormed = true := by decide

/-- A number wider than the port is rejected by name (R101). -/
theorem test_decode_rejects_wide_number :
    decodeNat 0x100000 = .error .widerThan20Bits ∧ decodeTableWord 20 0x100000 = none := by decide

/-! ## Decoding: words written out bit by bit from R101 and R105 -/

/-- Reads: RW = 0, REG = 0..7, and DATA is don't-care. -/
theorem test_decode_reads :
    decode 0b0_000_0000000000000000#20 = .rdCmd ∧ decode 0b0_001_0000000000000000#20 = .rdStatus ∧
    decode 0b0_010_0000000000000000#20 = .rdPrngState ∧
    decode 0b0_011_0000000000000000#20 = .rdCellAddr ∧
    decode 0b0_100_0000000000000000#20 = .rdCellData ∧
    decode 0b0_101_0000000000000000#20 = .rdCountData ∧
    decode 0b0_110_0000000000000000#20 = .rdGenCount ∧
    decode 0b0_111_1010010110100101#20 = .rdGenLimit := by decide

/-- Commands: RW = 1, REG = 0, reserved bits 0, OP = 0x0..0x8. -/
theorem test_decode_commands :
    decode 0b1_000_000000000000_0000#20 = .nop ∧ decode 0b1_000_000000000000_0001#20 = .init ∧
    decode 0b1_000_000000000000_0010#20 = .clear ∧ decode 0b1_000_000000000000_0011#20 = .evolve ∧
    decode 0b1_000_000000000000_0100#20 = .render ∧ decode 0b1_000_000000000000_0101#20 = .run ∧
    decode 0b1_000_000000000000_0110#20 = .stop ∧ decode 0b1_000_000000000000_0111#20 = .next ∧
    decode 0b1_000_000000000000_1000#20 = .clrerr := by decide

/-- Illegal command words (R107, R108; HA-12 to HA-15). -/
theorem test_decode_illegal :
    decode 0b1_000_000000000000_1001#20 = .illegalOp9 ∧
    decode 0b1_000_000000000000_1010#20 = .illegalOpAB 0#1 ∧
    decode 0b1_000_000000000000_1011#20 = .illegalOpAB 1#1 ∧
    decode 0b1_000_000000000000_1110#20 = .illegalOpCF 2#2 ∧
    decode 0b1_000_000000000001_0000#20 = .illegalReserved 0x0010#16 ∧
    decode 0b1_000_100000000000_0001#20 = .illegalReserved 0x8001#16 := by decide

/-- Register writes: RW = 1, REG ≠ 0, DATA as is (P2, P5). -/
theorem test_decode_writes :
    decode 0b1_001_0000000000000000#20 = .wrStatus 0x0000#16 ∧
    decode 0b1_010_0000000000000000#20 = .wrPrngState 0x0000#16 ∧
    decode 0b1_011_0000000010100011#20 = .wrCellAddr 163#16 ∧
    decode 0b1_100_0000000011111111#20 = .wrCellData 0x00FF#16 ∧
    decode 0b1_101_0000000000000111#20 = .wrCountData 7#16 ∧
    decode 0b1_110_0000000000001001#20 = .wrGenCount 9#16 ∧
    decode 0b1_111_0000000000000010#20 = .wrGenLimit 2#16 := by decide

/-! ## Reads -/

/-- HA-1: reads after reset. -/
theorem test_reads_after_reset :
    after 0x00000#20 State.reset (·.hRdata) = some [0x0000#16] ∧
    after 0x10000#20 State.reset (·.hRdata) = some [0x0000#16] ∧
    after 0x20000#20 State.reset (·.hRdata) = some [0xACE1#16] ∧
    after 0x30000#20 State.reset (·.hRdata) = some [0x0000#16] ∧
    after 0x60000#20 State.reset (·.hRdata) = some [0x0000#16] ∧
    after 0x70000#20 State.reset (·.hRdata) = some [0x0000#16] := by decide +kernel

/-- HA-1, HA-2: CELL_DATA and COUNT_DATA of a DEAD cell, and out of range. -/
theorem test_cell_reads :
    after 0x40000#20 State.reset (·.hRdata) = some [0x0000#16] ∧
    after 0x50000#20 State.reset (·.hRdata) = some [0x0000#16] ∧
    after 0x40000#20 (selected 0xFFFF#16) (·.hRdata) = some [0x0000#16] ∧
    after 0x50000#20 (selected 0xFFFF#16) (·.hRdata) = some [0x0000#16] := by decide +kernel

/-- R275, R276: an ALIVE cell reads 0x00FF and a count is zero-extended. -/
theorem test_cell_reads_nonzero :
    after 0x40000#20 { selected 164#16 with G := gridOf [164] } (·.hRdata) = some [0x00FF#16] ∧
    after 0x50000#20 { selected 164#16 with C := (setCount 164 8#4 State.reset).C } (·.hRdata) =
      some [0x0008#16] := by decide +kernel

/-- HA-24: exact reads while BUSY. -/
theorem test_exact_reads_while_busy :
    after 0x10000#20 busyInit (·.hRdata) = some [0x0001#16] ∧
    after 0x60000#20 { busyInit with genCount := 7#16 } (·.hRdata) = some [7#16] ∧
    after 0x30000#20 { busyInit with cellAddr := 5#16 } (·.hRdata) = some [5#16] ∧
    after 0x70000#20 { busyInit with genLimit := 9#16 } (·.hRdata) = some [9#16] := by decide +kernel

/-- HA-23: reads of PRNG_STATE, CELL_DATA and COUNT_DATA while BUSY return one value and no error. -/
theorem test_unstable_reads_complete :
    after 0x20000#20 busyInit (fun u => (u.hRdata.length, u.err)) = some (1, false) ∧
    after 0x40000#20 busyInit (fun u => (u.hRdata.length, u.err)) = some (1, false) ∧
    after 0x50000#20 busyInit (fun u => (u.hRdata.length, u.err)) = some (1, false) := by
  decide +kernel

/-! ## Commands -/

/-- The LFSR vectors of 95_test_vectors.md (taps 0, 2, 3, 5; not 1 and 4; the top bit). -/
theorem test_lfsr_steps :
    lfsrNext 0x0001#16 = 0x8000#16 ∧ lfsrNext 0x0002#16 = 0x0001#16 ∧
    lfsrNext 0x0004#16 = 0x8002#16 ∧ lfsrNext 0x0008#16 = 0x8004#16 ∧
    lfsrNext 0x0010#16 = 0x0008#16 ∧ lfsrNext 0x0020#16 = 0x8010#16 ∧
    lfsrNext 0x002D#16 = 0x0016#16 ∧ lfsrNext 0x8000#16 = 0x4000#16 ∧
    lfsrNext 0xFFFF#16 = 0x7FFF#16 ∧ lfsrNext 0xACE1#16 = 0x5670#16 := by decide

/-- PR-4: 100 draws from the seed. -/
theorem test_lfsr_100_draws : lfsrNext^[100] SEED = 0x13E1#16 := by decide +kernel

/-- NX-1, NX-3: NEXT draws at once; while BUSY it is rejected and does not draw. -/
theorem test_next :
    after 0x80007#20 State.reset (fun u => (u.S, statusWord u)) = some (0x5670#16, 0x0000#16) ∧
    after 0x80007#20 busyInit (fun u => (u.S, statusWord u)) = some (0xACE1#16, 0x0029#16) := by
  decide +kernel

/-- INIT is accepted, and rejected while BUSY (HZ-1 by the same rule). -/
theorem test_init_accepted :
    after 0x80001#20 State.reset (fun u => (u.op, statusWord u)) = some (.init, 0x0001#16) ∧
    after 0x80001#20 busyInit (fun u => (u.op, statusWord u)) = some (.init, 0x0029#16) := by
  decide +kernel

/-- CLEAR, EVOLVE and RENDER are accepted with BUSY alone (HZ-4; R170, R200, R181). -/
theorem test_clear_evolve_render_accepted :
    after 0x80002#20 State.reset (fun u => (u.op, statusWord u)) = some (.clear, 0x0001#16) ∧
    after 0x80003#20 State.reset (fun u => (u.op, statusWord u)) = some (.evolve, 0x0001#16) ∧
    after 0x80004#20 State.reset (fun u => (u.op, statusWord u)) = some (.render, 0x0001#16) := by
  decide +kernel

/-- CL-2, HZ-1: CLEAR, EVOLVE and RENDER while BUSY raise BUSY. -/
theorem test_clear_evolve_render_rejected :
    after 0x80002#20 busyInit (fun u => (u.op, statusWord u)) = some (.init, 0x0029#16) ∧
    after 0x80003#20 busyInit (fun u => (u.op, statusWord u)) = some (.init, 0x0029#16) ∧
    after 0x80004#20 busyInit (fun u => (u.op, statusWord u)) = some (.init, 0x0029#16) := by
  decide +kernel

/-- RU-2, RU-3: RUN gives STATUS 0x0003; P5: GEN_LIMIT is captured. -/
theorem test_run :
    after 0x80005#20 State.reset (fun u => (statusWord u, u.runInf)) = some (0x0003#16, true) ∧
    after 0x80005#20 { State.reset with genLimit := 2#16 } (fun u => (u.runLeft, u.runInf)) =
      some (2#16, false) := by decide +kernel

/-- RU-2, RU-4: STOP during a run gives 0x0007; without a run it has no effect. -/
theorem test_stop :
    after 0x80006#20 runningState statusWord = some 0x0007#16 ∧
    after 0x80006#20 State.reset statusWord = some 0x0000#16 := by decide +kernel

/-- HA-21, RU-8: CLRERR clears the error and leaves a run alone. -/
theorem test_clrerr :
    after 0x80008#20 { State.reset with err := true, errcode := 4#3 } statusWord = some 0x0000#16 ∧
    after 0x80008#20 runningState statusWord = some 0x0003#16 := by decide +kernel

/-- RU-8: NOP has no effect. -/
theorem test_nop : after 0x80000#20 runningState statusWord = some 0x0003#16 := by decide +kernel

/-! ## Writes -/

/-- HA-2, HA-16: CELL_ADDR takes any value while idle and none while BUSY. -/
theorem test_wrCellAddr :
    after 0xBFFFF#20 State.reset (·.cellAddr) = some 0xFFFF#16 ∧
    after 0xB0005#20 busyInit (fun u => (u.cellAddr, statusWord u)) = some (0#16, 0x0029#16) := by
  decide +kernel

/-- HA-4: a cell is written and its count is not recomputed. -/
theorem test_wrCellData_writes :
    after 0xC00FF#20 (selected 164#16) (fun u => (cell u.G 164, cell u.G 165, statusWord u)) =
      some (0xFF#8, 0x00#8, 0x0000#16) ∧
    after 0xC00FF#20 (selected 164#16) (fun u => count u.C 164) = some 0#4 := by decide +kernel

/-- HA-5 to HA-11, HA-18: the order of the checks. -/
theorem test_wrCellData_checks :
    after 0xC00FF#20 (selected 0#16) statusWord = some 0x0048#16 ∧
    after 0xC0000#20 (selected 0#16) statusWord = some 0x0048#16 ∧
    after 0xC00FF#20 (selected 2000#16) statusWord = some 0x0038#16 ∧
    after 0xC1234#20 (selected 2000#16) statusWord = some 0x0038#16 ∧
    after 0xC1234#20 (selected 0#16) statusWord = some 0x0048#16 ∧
    after 0xC0001#20 (selected 81#16) statusWord = some 0x0058#16 ∧
    after 0xCFF00#20 (selected 81#16) statusWord = some 0x0058#16 ∧
    after 0xC1234#20 { busyInit with cellAddr := 5000#16 } statusWord = some 0x0029#16 := by
  decide +kernel

/-- P5, RU-6: GEN_LIMIT while idle and during a run. -/
theorem test_wrGenLimit :
    after 0xF0002#20 State.reset (·.genLimit) = some 2#16 ∧
    after 0xF0005#20 runningState (fun u => (u.genLimit, u.errcode)) = some (0#16, 2#3) := by
  decide +kernel

/-- P1, HA-20, HA-22, NX-5: ignored writes. -/
theorem test_ignored_writes :
    after 0xA0000#20 State.reset (·.S) = some 0xACE1#16 ∧
    after 0x90000#20 { State.reset with err := true, errcode := 4#3 } statusWord = some 0x0048#16 ∧
    after 0xD0007#20 State.reset (fun u => (count u.C 0, statusWord u)) = some (0#4, 0#16) ∧
    after 0xE0009#20 State.reset (fun u => (u.genCount, statusWord u)) = some (0#16, 0#16) := by
  decide +kernel

/-- HA-12 to HA-15, HA-17: illegal command words; HA-15 starts no INIT. -/
theorem test_illegal_commands :
    after 0x80009#20 State.reset statusWord = some 0x0018#16 ∧
    after 0x8000A#20 State.reset statusWord = some 0x0018#16 ∧
    after 0x8000F#20 State.reset statusWord = some 0x0018#16 ∧
    after 0x80010#20 State.reset statusWord = some 0x0018#16 ∧
    after 0x88001#20 State.reset (fun u => (u.op, statusWord u)) = some (.none, 0x0018#16) ∧
    after 0x8000F#20 busyInit statusWord = some 0x0019#16 := by decide +kernel

/-- HA-19: the first error is kept. -/
theorem test_first_error_is_kept :
    after 0xC00FF#20 { selected 2000#16 with err := true, errcode := 4#3 } statusWord =
      some 0x0048#16 := by decide +kernel

/-! ## The engine's pieces -/

/-- IN-2: draw 10 gives an ALIVE cell, draws 1 and 2 and the last do not. -/
theorem test_birth :
    birth 0xC8AB#16 = true ∧ birth 0x8E45#16 = true ∧ birth 0x5670#16 = false ∧
    birth 0xAB38#16 = false ∧ birth 0x02AB#16 = false := by decide

/-- EV-2: the counts and the next states of the blinker 163, 164, 165. -/
theorem test_blinker_counts_and_rule :
    let g := gridOf [163, 164, 165]
    [82, 83, 84, 85, 86, 163, 164, 244].map (ncount g) = [1, 2, 3, 2, 1, 1, 2, 3] ∧
    [84, 163, 164, 165, 244].map (fun i => rule (cell g i) (ncount g i)) =
      [ALIVE, DEAD, ALIVE, DEAD, ALIVE] := by decide +kernel

/-- EV-6: a border cell is no interior cell, whatever its neighbours. -/
theorem test_border_and_corners :
    [0, 79, 80, 159, 1920, 1999].map border = [true, true, true, true, true, true] ∧
    [81, 158, 1841, 1918].map interior = [true, true, true, true] := by decide

/-- RN-3: the display pair of one cell. -/
theorem test_display_pair :
    renderCell (gridOf [1000]) 1000 = [⟨2000#12, 0x20#8⟩, ⟨2001#12, 0xFF#8⟩] ∧
    renderCell (gridOf []) 1999 = [⟨3998#12, 0x20#8⟩, ⟨3999#12, 0x00#8⟩] := by decide +kernel

/-- RS-5: transactions presented during reset are discarded; R58's values of the small registers. -/
theorem test_reset_step :
    (match step { selected 7#16 with inputs := [.reset 0 [0xB0005#20]] } with
      | .next u => some (u.cellAddr, u.S, statusWord u, u.inputs)
      | .fault _ => none
      | .refused _ => none) = some (0#16, 0xACE1#16, 0x0000#16, []) := by decide +kernel

/-- R114: SETCELL 2, 3, 1 of the vectors' blinker is WR CELL_ADDR, 163 and WR CELL_DATA, 0x00FF. -/
theorem test_setcell_expansion :
    (expand (.setCell 2 3 true)).map encode = [0xB00A3#20, 0xC00FF#20] := by decide

/-- The first step after reset runs the word presented (the host's use of `withFetchWord`). -/
theorem test_withFetchWord :
    decodeTableWord 20 0x80007 = some .next ∧
    (match step (State.reset.withFetchWord 20 0x80007) with
      | .next u => some u.S
      | .fault _ => none
      | .refused _ => none) = some 0x5670#16 := by decide +kernel

/-! ## Witnesses: states and operands that meet the hypotheses of each statement -/

/-- DecodeOfEncodeIsIdentity: an operand at each end, and the smallest well-formed reserved word. -/
theorem witness_wellFormed :
    Instr.init.wellFormed = true ∧ (Instr.wrCellAddr 0xFFFF#16).wellFormed = true ∧
    (Instr.illegalOpCF 3#2).wellFormed = true ∧
    (Instr.illegalReserved 0x0010#16).wellFormed = true := by decide

/-- EncodeOfDecodeRestoresTheWord and ReadsChangeNoStateOfTheBlock: a write and a read with DATA set. -/
theorem witness_rwField : rwField 0x80000#20 = true ∧ rwField 0x7FFFF#20 = false := by decide

/-- DecoderIsTheOpcodeTable: words outside the catch-all row. -/
theorem witness_outside_catch_all :
    catchAllRow.hits 0x00000#20 = false ∧ catchAllRow.hits 0xF0002#20 = false := by decide

/-- StepRunsThePresentedTransaction: each clause, the last at the largest word. -/
theorem witness_presented :
    (∃ s t rest i, State.inputs s = .host t :: rest ∧ decode t = i) ∧
    (∃ s rest, State.inputs s = .host (encode (.wrGenLimit 2#16)) :: rest ∧
      (Instr.wrGenLimit 2#16).wellFormed = true) ∧
    0xFFFFF < 2 ^ 20 :=
  ⟨⟨{ State.reset with inputs := [.host 0x80007#20] }, _, _, _, rfl, rfl⟩,
    ⟨{ State.reset with inputs := [.host _] }, _, rfl, rfl⟩, by decide⟩

/-- EngineMovesExactlyWhileBusy and the engine's operations: one state per pending operation. -/
theorem witness_engine :
    State.reset.busy = false ∧ State.reset.inputs = [] ∧
    ({ State.reset with inputs := [.idle] } : State).inputs = .idle :: [] ∧
    ∀ o ∈ [Op.init, Op.clear, Op.evolve, Op.render, Op.run],
      (pending o).busy = true ∧ (pending o).op = o ∧ (pending o).op ≠ .none := by
  decide +kernel

/-- The commands that BUSY excludes, and BothOrdersOfHostAndEngineAreAdmitted: idle and BUSY. -/
theorem witness_idle_and_busy : State.reset.busy = false ∧ busyInit.busy = true := by decide

/-- A state over the reset grid meets the invariant when its small fields do. -/
theorem inv_over_reset_grid {s : State} (hG : s.G = State.reset.G) (hC : s.C = State.reset.C)
    (hd : s.display = []) (hS : s.S ≠ 0#16) (h1 : s.busy = false ↔ s.op = .none)
    (h2 : s.running = true ↔ s.op = .run) (h3 : s.stopPend = true → s.running = true)
    (h4 : s.err = false) (h5 : s.errcode = 0#3)
    (h6 : s.running = true → s.runInf = false → 1 ≤ s.runLeft.toNat) : Inv s where
  prng := hS
  cells i _ := by rw [hG]; exact .inl (cell_replicate i)
  borderCells i _ _ := by rw [hG]; exact cell_replicate i
  counts i _ := by
    rw [hC]
    have h : count State.reset.C i = 0#4 := count_replicate i
    rw [h]; decide
  borderCounts i _ _ := by rw [hC]; exact count_replicate i
  busyOp := h1
  runningOp := h2
  stopRunning := h3
  noErr _ := h5
  errSet h := by rw [h4] at h; cases h
  runLeft := h6
  display := by rw [hd]; exact reset_display_wf

/-- EveryStepKeepsTheInvariant, NoRunFromAnInvariantStateStops and PendingOperationsComplete: idle after
a NEXT; a bounded run with the longest count; an unbounded run with a STOP. -/
theorem witness_invariant :
    Inv { State.reset with S := 0x5670#16 } ∧
    Inv { pending .run with running := true, runLeft := 0xFFFF#16 } ∧
    Inv { pending .run with running := true, runInf := true, stopPend := true } := by
  refine ⟨?_, ?_, ?_⟩ <;>
    exact inv_over_reset_grid rfl rfl rfl (by decide) (by decide) (by decide) (by decide) rfl rfl
      (by decide)

/-- EveryStepKeepsTheInvariant: the engine's step from such a state answers. -/
theorem witness_invariant_step :
    ∃ s t, Inv s ∧ step s = .next t ∧ s.inputs = [] ∧ (s.op = .run → s.runInf = false) :=
  ⟨{ pending .run with running := true, runLeft := 0xFFFF#16 }, _, witness_invariant.2.1,
    (step_nil rfl).trans (engineStep_run rfl rfl), rfl, fun _ => rfl⟩

/-- DisplayWritesStayInsideTheRegion: a recorded write at the last offset, and a RENDER step. -/
theorem witness_display_writes :
    ∃ s t, (∀ w ∈ State.dispTrace s, w.off.toNat < 4000) ∧ s.dispTrace ≠ [] ∧ step s = .next t :=
  ⟨{ pending .render with dispTrace := [⟨3999#12, 0x00#8⟩] }, _, by decide, by decide,
    (step_nil rfl).trans (engineStep_render rfl rfl)⟩

/-- The LFSR statements: the clauses on bits at their ends, a non-zero value, the ends of a period. -/
theorem witness_lfsr :
    (0 ≤ 14 ∧ 14 ≤ 14) ∧ (0x0001#16 : Word) ≠ 0#16 ∧ (0 < 65534 ∧ 65534 < 65535) ∧
    (0 < 10 ∧ 1 ≤ 1 ∧ 1 ≤ 5 ∧ 9 < 10) := by decide

/-- A step with a transaction that BUSY excludes, while idle. -/
theorem host_step {s : State} {w : Transaction} {rest : List Input} {i : Instr} {act : State → State}
    (h : s.inputs = .host w :: rest) (hd : decode w = i) (hg : Gated i act) (hb : s.busy = false) :
    step s = .next (act (setInputs rest s)) := by
  rw [step_host h, hd]; exact exec_gated_idle hg hb

/-- OnlyNextInitAndResetChangeThePrng: a step of each kind that changes `S` answers. -/
theorem witness_prng_steps :
    (∃ s t, HostIssues .next s ∧ s.busy = false ∧ step s = .next t) ∧
    (∃ s t, EngineMoves s ∧ s.busy = true ∧ s.op = .init ∧ step s = .next t) ∧
    ∃ s t, ResetMoves s ∧ step s = .next t :=
  ⟨⟨{ State.reset with inputs := [.host 0x80007#20] }, _, ⟨_, _, rfl, by decide⟩, rfl,
      host_step rfl (by decide) .next rfl⟩,
    ⟨pending .init, _, .inl rfl, rfl, rfl, (step_nil rfl).trans (engineStep_init rfl rfl)⟩,
    ⟨{ State.reset with inputs := [.reset 0 []] }, _, .inl ⟨_, _, _, rfl⟩, step_reset rfl⟩⟩

/-- NopStopAndClrerrAreAlwaysAccepted and StopEndsTheRunAtTheNextEngineStep: running or not. -/
theorem witness_running :
    State.reset.running = false ∧ runningState.running = true ∧ runningState.busy = true ∧
    runningState.op = .run := by decide

/-- The clauses over cells: the first and last draw of INIT, the ends of border and interior. -/
theorem witness_cell_ranges :
    0 < 1794 ∧ 1793 < 1794 ∧ (0 < N ∧ border 0 = true) ∧ (1999 < N ∧ border 1999 = true) ∧
    (81 < N ∧ interior 81 = true) ∧ (1918 < N ∧ interior 1918 = true) := by decide

/-- PhaseResultsDoNotDependOnCellOrder: an order other than the ascending one. -/
theorem witness_cell_order : (List.range N).reverse.Perm (List.range N) := List.reverse_perm _

/-- ReferenceFsmPerformsTheAtomicEvolve. -/
theorem witness_fsm :
    (pending .evolve).busy = true ∧ (pending .evolve).op = .evolve ∧
    (⟨.cntStart, 0, 0, 0#4⟩ : Fsm).phase = .cntStart := by decide

/-- The cells of `gridOf`. -/
theorem cell_gridOf (l : List Nat) (s : State) (i : Nat) (hi : i < N) :
    cell (l.foldl (fun s i => setCell i ALIVE s) s).G i = if i ∈ l then ALIVE else cell s.G i := by
  induction l generalizing s with
  | nil => simp
  | cons a l ih =>
    rw [List.foldl_cons, ih, cell_setCell]
    by_cases h : i ∈ l
    · rw [if_pos h, if_pos (List.mem_cons_of_mem _ h)]
    · rw [if_neg h]
      by_cases ha : i = a
      · rw [if_pos ⟨ha ▸ hi, ha⟩, if_pos (by rw [ha]; exact List.mem_cons_self)]
      · rw [if_neg (fun h' => ha h'.2), if_neg (by rw [List.mem_cons]; exact not_or.2 ⟨ha, h⟩)]

/-- `gridOf l` has exactly the cells of `l` ALIVE. -/
theorem aliveExactly_gridOf (l : List Nat) : AliveExactly (gridOf l) l := fun i hi => by
  have h : cell State.reset.G i = DEAD := cell_replicate i
  exact (cell_gridOf l State.reset i hi).trans (by rw [h])

/-- BlockIsAStillLife and BlinkerHasPeriodTwo: patterns at both ends of the allowed positions. -/
theorem witness_patterns :
    (1 ≤ 1 ∧ 1 + 1 ≤ H - 2 ∧ 22 + 1 ≤ H - 2 ∧ 1 + 1 ≤ W - 2 ∧ 77 + 1 ≤ W - 2) ∧
    AliveExactly (gridOf [81, 82, 161, 162]) [idx 1 1, idx 1 2, idx 2 1, idx 2 2] ∧
    AliveExactly (gridOf [1837, 1838, 1917, 1918]) [idx 22 77, idx 22 78, idx 23 77, idx 23 78] ∧
    (2 ≤ 2 ∧ 2 ≤ H - 3 ∧ 22 ≤ H - 3 ∧ 2 ≤ W - 3 ∧ 77 ≤ W - 3) ∧
    AliveExactly (gridOf [161, 162, 163]) [idx 2 1, idx 2 2, idx 2 3] ∧
    AliveExactly (gridOf [1836, 1837, 1838]) [idx 22 76, idx 22 77, idx 22 78] := by
  exact ⟨by decide, aliveExactly_gridOf _, aliveExactly_gridOf _, by decide,
    aliveExactly_gridOf _, aliveExactly_gridOf _⟩

/-- IsolatedCellDiesAndThreeNeighboursGiveBirth: EV-3's cell and EV-4's. -/
theorem witness_isolated_and_birth :
    (cell (gridOf [840]) 840 = ALIVE ∧ neighbourSum (gridOf [840]) 840 = 0 ∧ interior 840 = true) ∧
    cell (gridOf [243, 245, 404]) 324 = DEAD ∧ neighbourSum (gridOf [243, 245, 404]) 324 = 3 ∧
    interior 324 = true := by decide +kernel

/-- RenderedDisplayEqualsTheGrid and ResetAbortsTheOperationAndKeepsItsWrites: the ends of their ranges. -/
theorem witness_display_ranges : 1999 < N ∧ 4000 ≤ 4000 ∧ 0 ≤ 4000 := by decide

/-- RunStepRendersThenEvolves: with a STOP pending; going on; the last iteration; unbounded. -/
theorem witness_run_step :
    1 ≤ (1#16 : Word).toNat ∧ 1 ≤ (0xFFFF#16 : Word).toNat ∧
    ({ pending .run with stopPend := true } : State).stopPend = true ∧
    (pending .run).stopPend = false ∧ (2#16 - 1#16 : Word) ≠ 0#16 ∧
    (1#16 - 1#16 : Word) = 0#16 ∧ runningState.runInf = true := by decide

/-- BoundedRunPerformsGenLimitIterations at both ends, and UnboundedRunRendersEveryGeneration. -/
theorem witness_runs :
    (∀ l ∈ [1#16, 0xFFFF#16],
      ∃ s : State, s.busy = false ∧ s.genLimit = l ∧ s.genLimit ≠ 0#16 ∧
        s.inputs = [.host 0x80005#20]) ∧
    ∃ s : State, s.busy = false ∧ s.genLimit = 0#16 ∧ s.inputs = [.host 0x80005#20] := by
  refine ⟨fun l hl => ⟨{ State.reset with genLimit := l, inputs := [.host 0x80005#20] },
    rfl, rfl, ?_, rfl⟩, ⟨{ State.reset with inputs := [.host 0x80005#20] }, rfl, rfl, rfl⟩⟩
  simp only [List.mem_cons, List.not_mem_nil, or_false] at hl
  rcases hl with rfl | rfl <;> decide

/-- StatusWordLayout: the first and the last bit that reads 0. -/
theorem witness_status_bits : 7 ≤ 7 ∧ 7 ≤ 15 := by decide

/-- PrngCellAndCountReadsWhileIdle: the last cell and the first CELL_ADDR beyond it (HA-2, HA-3). -/
theorem witness_cell_addresses :
    (selected 1999#16).busy = false ∧ (selected 1999#16).cellAddr.toNat < N ∧
    (selected 2000#16).busy = false ∧ N ≤ (selected 2000#16).cellAddr.toNat := by decide

/-- CellDataWriteChecksInOrderThenWritesOneCell: each clause at an end of its range (HA-4 to HA-11). -/
theorem witness_cell_data_clauses :
    N ≤ (selected 2000#16).cellAddr.toNat ∧ N ≤ (selected 0xFFFF#16).cellAddr.toNat ∧
    border (selected 0#16).cellAddr.toNat = true ∧ border (selected 1999#16).cellAddr.toNat = true ∧
    border (selected 81#16).cellAddr.toNat = false ∧
    border (selected 1918#16).cellAddr.toNat = false ∧
    (0x0001#16 : Word) ≠ 0x0000#16 ∧ (0x0001#16 : Word) ≠ 0x00FF#16 ∧
    (0xFF00#16 : Word) ≠ 0x0000#16 ∧ (0xFF00#16 : Word) ≠ 0x00FF#16 := by decide

/-- IllegalCommandWordsRaiseIllegalCmd: the ends of the illegal ranges, and their legal neighbour. -/
theorem witness_illegal_words :
    illegalWord 0x0009#16 = true ∧ illegalWord 0x000F#16 = true ∧ illegalWord 0x0010#16 = true ∧
    illegalWord 0xFFFF#16 = true ∧ illegalWord 0x0008#16 = false := by decide

/-- RaiseErrorKeepsTheFirstCode and OnlyClrerrAndResetClearTheError: with and without an error, and a
step of each kind from a state with one. -/
theorem witness_errors :
    State.reset.err = false ∧
    (∃ s t, HostIssues .clrerr s ∧ s.err = true ∧ step s = .next t) ∧
    ∃ s t, ResetMoves s ∧ s.err = true ∧ step s = .next t :=
  ⟨rfl,
    ⟨{ State.reset with err := true, errcode := 4#3, inputs := [.host 0x80008#20] }, _,
      ⟨_, _, rfl, by decide⟩, rfl,
      by rw [step_host rfl, show decode 0x80008#20 = .clrerr by decide]; rfl⟩,
    ⟨{ State.reset with err := true, errcode := 4#3, inputs := [.powerCycle 0] }, _,
      .inr ⟨_, _, rfl⟩, rfl, step_powerCycle rfl⟩⟩

/-- FirstApplicableErrorIsRaised: every error is the first one somewhere, and some transaction has none. -/
theorem witness_first_error :
    firstError 0x80009#20 busyInit = some .illegalCmd ∧ firstError 0x80001#20 busyInit = some .busy ∧
    firstError 0xC1234#20 (selected 2000#16) = some .range ∧
    firstError 0xC1234#20 (selected 0#16) = some .border ∧
    firstError 0xC1234#20 (selected 81#16) = some .badValue ∧
    firstError 0xC00FF#20 (selected 81#16) = none ∧ firstError 0x80006#20 busyInit = none := by
  decide +kernel

/-- OnlyCellWritesEngineAndResetChangeTheGrid: an accepted CELL_DATA write that answers. -/
theorem witness_host_step :
    ∃ s t w v rest, State.inputs s = .host w :: rest ∧ decode w = .wrCellData v ∧
      firstError w s = none ∧ step s = .next t :=
  ⟨{ selected 164#16 with inputs := [.host 0xC00FF#20] }, _, 0xC00FF#20, 0x00FF#16, [], rfl,
    by decide, by decide,
    host_step rfl (by decide) (.wrCellData 0x00FF#16) rfl⟩

/-- HostCannotDisturbAPendingOperation and BothOrdersOfHostAndEngineAreAdmitted: a rejected EVOLVE during
an INIT. -/
theorem witness_disturb :
    busyInit.busy = true ∧ busyInit.op ≠ .none ∧ decode 0x80003#20 ≠ .stop := by decide

/-- OnlyRenderAndRunWriteTheDisplay: a RENDER step answers a state with another record. -/
theorem witness_display_changes :
    ∃ s t, step s = .next t ∧ t.dispTrace ≠ s.dispTrace := by
  refine ⟨pending .render, _, (step_nil rfl).trans (engineStep_render rfl rfl), fun h => ?_⟩
  rw [performRender_eq] at h
  have h' := congrArg List.length h
  simp only [List.length_append, List.length_reverse, renderWrites_length, DISP_BYTES, N, W, H] at h'
  omega

/-- The reset statements: idle; a RENDER and a RUN with every prefix length at its ends; another
operation; and power. -/
theorem witness_resets :
    (∃ s : State, s.busy = false ∧ s.inputs = [.reset 0 [0xB0005#20]]) ∧
    (∀ k ∈ [0, 4000], ∀ o ∈ [Op.render, Op.run], ∃ s : State,
      s.busy = true ∧ s.op = o ∧ s.inputs = [.reset k []] ∧ k ≤ 4000) ∧
    (∃ s : State, s.op ≠ .render ∧ s.op ≠ .run ∧ s.busy = true ∧ s.inputs = [.reset 0 []]) ∧
    ∀ k ∈ [0, 4000], k ≤ 4000 ∧
      (∃ s : State, s.busy = true ∧ s.op = .run ∧ s.stopPend = true ∧ s.inputs = [.reset k []]) ∧
      ∃ s : State, s.busy = true ∧ s.op = .render ∧ s.inputs = [.powerCycle k] := by
  refine ⟨⟨{ State.reset with inputs := _ }, rfl, rfl⟩, fun k hk o _ =>
    ⟨{ pending o with inputs := _ }, rfl, rfl, rfl, ?_⟩,
    ⟨{ pending .init with inputs := _ }, by decide, by decide, rfl, rfl⟩, fun k hk => ⟨?_,
    ⟨{ pending .run with stopPend := true, inputs := _ }, rfl, rfl, rfl, rfl⟩,
    ⟨{ pending .render with inputs := _ }, rfl, rfl, rfl⟩⟩⟩ <;>
    (simp only [List.mem_cons, List.not_mem_nil, or_false] at hk; omega)

/-- RecordedErrorDoesNotAffectTheBlock: two states that differ in the error and in what the host has read;
a step from each of RD STATUS and RD CELL_DATA while idle, and from an unstable read. -/
theorem witness_same_but_errors :
    (∃ s s' t, SameButErrors s s' ∧ s.err ≠ s'.err ∧ s.hRdata ≠ s'.hRdata ∧ step s = .next t ∧
      ¬ ReadsUnstably s ∧ HostIssues .rdStatus s) ∧
    (∃ s s' t, SameButErrors s s' ∧ s.err ≠ s'.err ∧ step s = .next t ∧
      ¬ ReadsUnstably s ∧ ¬ HostIssues .rdStatus s) ∧
    ∃ s, ReadsUnstably s :=
  ⟨⟨{ State.reset with inputs := [.host 0x10000#20] },
      { State.reset with
        err := true, errcode := 4#3, hRdata := [0x0048#16], inputs := [.host 0x10000#20] },
      _, rfl, by decide, by decide,
      by rw [step_host rfl, show decode 0x10000#20 = .rdStatus by decide]; rfl,
      fun h => (by cases h.1), ⟨_, _, rfl, by decide⟩⟩,
    ⟨{ State.reset with inputs := [.host 0x40000#20] },
      { State.reset with err := true, errcode := 4#3, inputs := [.host 0x40000#20] },
      _, rfl, by decide,
      by rw [step_host rfl, show decode 0x40000#20 = .rdCellData by decide]; rfl,
      fun h => (by cases h.1), fun ⟨w, rest, h, hd⟩ => by cases h; revert hd; decide⟩,
    ⟨{ busyInit with inputs := [.host 0x50000#20] }, rfl, .inr (.inr ⟨_, _, rfl, by decide⟩)⟩⟩

/-- SetCellPseudoSetsOneInteriorCell: the first and the last interior cell. -/
theorem witness_setCell :
    ∀ p ∈ [(1, 1), (H - 2, W - 2)], ∃ s : State,
      s.busy = false ∧ 1 ≤ p.1 ∧ p.1 ≤ H - 2 ∧ 1 ≤ p.2 ∧ p.2 ≤ W - 2 ∧
      s.inputs = (expand (.setCell p.1 p.2 true)).map (fun i => .host (encode i)) := by
  intro p hp
  refine ⟨{ State.reset with inputs := _ }, rfl, ?_, ?_, ?_, ?_, rfl⟩ <;>
    (simp only [List.mem_cons, List.not_mem_nil, or_false] at hp; rcases hp with rfl | rfl <;> decide)

end Sys2Proof.Tests
end

section
/-! The layout of STATUS (10_state.md R39, R40): where each field of the state stands in `statusWord`. -/

namespace Sys2Proof.Machine

variable (s : State)

/-- The bit at any position of STATUS: the four flags from bit 0 up, then ERRCODE, which gives 0 past
its third bit. -/
theorem getLsbD_statusWord (k : Nat) :
    (statusWord s).getLsbD k =
      match k with
      | 0 => s.busy
      | 1 => s.running
      | 2 => s.stopPend
      | 3 => s.err
      | j + 4 => s.errcode.getLsbD j := by
  simp only [statusWord, BitVec.getLsbD_append]
  match k with
  | 0 | 1 | 2 | 3 => simp
  | j + 4 =>
    by_cases hj : j < 3
    · simp [hj]
    · simp [hj, BitVec.getLsbD_of_ge s.errcode j (by omega)]

@[simp] theorem statusWord_bit_busy : (statusWord s).getLsbD 0 = s.busy :=
  getLsbD_statusWord s 0

@[simp] theorem statusWord_bit_running : (statusWord s).getLsbD 1 = s.running :=
  getLsbD_statusWord s 1

@[simp] theorem statusWord_bit_stopPend : (statusWord s).getLsbD 2 = s.stopPend :=
  getLsbD_statusWord s 2

@[simp] theorem statusWord_bit_err : (statusWord s).getLsbD 3 = s.err :=
  getLsbD_statusWord s 3

@[simp] theorem statusWord_field_errcode : (statusWord s).extractLsb' 4 3 = s.errcode := by
  apply BitVec.eq_of_getLsbD_eq
  intro j hj
  rw [BitVec.getLsbD_extractLsb', Nat.add_comm, getLsbD_statusWord]
  simp [hj]

theorem statusWord_bit_reserved {k : Nat} (hk : 7 ≤ k) : (statusWord s).getLsbD k = false := by
  obtain ⟨j, rfl⟩ := Nat.exists_eq_add_of_le' hk
  exact (getLsbD_statusWord s (j + 3 + 4)).trans (BitVec.getLsbD_of_ge _ _ (by omega))

/-- Settles O39: each clause is the rule of one field of STATUS. -/
theorem statusWordLayout : Obligations.StatusWordLayout := fun s =>
  ⟨statusWord_bit_busy s, statusWord_bit_running s, statusWord_bit_stopPend s, statusWord_bit_err s,
    statusWord_field_errcode s, fun _ hk => statusWord_bit_reserved s hk⟩

end Sys2Proof.Machine
end

section
/-! The decoder against the opcode table (30_encoding.md R111): the fields of a word that the rows look
at, and which rows a word hits. -/

namespace Sys2Proof

/-! ## Fields -/

/-- REG has eight values. -/
theorem reg_cases (reg : BitVec 3) :
    reg = 0#3 ∨ reg = 1#3 ∨ reg = 2#3 ∨ reg = 3#3 ∨
      reg = 4#3 ∨ reg = 5#3 ∨ reg = 6#3 ∨ reg = 7#3 := by
  revert reg; decide

/-- A data value without a reserved bit is its OP. -/
theorem zero_append_opField {d : Word} (h : reservedField d = 0#12) : 0#12 ++ opField d = d := by
  rw [← h, command_fields]

/-- The mask of RW, REG and the reserved field clears OP and keeps the rest. -/
theorem transaction_and_reserved (rw : BitVec 1) (reg : BitVec 3) (d : Word) :
    transaction rw reg d &&& 0xFFFF0#20 = transaction rw reg (reservedField d ++ 0#4) := by
  have h : 0xFFFF0#20 = transaction (BitVec.allOnes 1) (BitVec.allOnes 3) 0xFFF0#16 := by decide
  have hd : d &&& 0xFFF0#16 = reservedField d ++ 0#4 := by
    conv => lhs; rw [← command_fields d]
    refine (BitVec.and_append (x₂ := BitVec.allOnes 12) (y₂ := 0#4)).trans ?_
    rw [BitVec.and_allOnes, BitVec.and_zero]
  rw [h]
  unfold transaction
  rw [BitVec.and_append, BitVec.and_append, BitVec.and_allOnes, BitVec.and_allOnes, hd]

/-- A word with RW = 1, REG = 0 and the reserved field 0 is a command word of R106 or R107. -/
theorem eq_commandWord_of_and {t : Transaction} (h : t &&& 0xFFFF0#20 = 0x80000#20) :
    t = commandWord (opField (dataField t)) := by
  have hf := h
  rw [← transaction_fields t, transaction_and_reserved,
    show 0x80000#20 = transaction 1#1 0#3 (0#12 ++ 0#4) by decide] at hf
  have hrw := congrArg rwField hf
  have hreg := congrArg regField hf
  have hres := congrArg (fun u => reservedField (dataField u)) hf
  simp only [rwField_transaction, regField_transaction, dataField_transaction,
    reservedField_append] at hrw hreg hres
  calc t = transaction (BitVec.ofBool (rwField t)) (regField t) (dataField t) :=
        (transaction_fields t).symm
    _ = commandWord (opField (dataField t)) := by
        rw [commandWord, writeWord, zero_append_opField hres, hreg,
          show rwField t = true by simpa using hrw]
        rfl

/-! ## Decoding -/

theorem decodeCommand_reserved {d : Word} (h : reservedField d ≠ 0#12) :
    decodeCommand d = .illegalReserved d := by
  simp [decodeCommand, h]

theorem decodeRead_wellFormed (reg : BitVec 3) : (decodeRead reg).wellFormed = true := by
  revert reg; decide

theorem decodeCommand_wellFormed (d : Word) : (decodeCommand d).wellFormed = true := by
  by_cases h : reservedField d = 0#12
  · rw [← zero_append_opField h]
    generalize opField d = op
    revert op; decide
  · simp [decodeCommand_reserved h, Instr.wellFormed, h]

theorem decodeWrite_wellFormed (reg : BitVec 3) (d : Word) :
    (decodeWrite reg d).wellFormed = true := by
  rcases reg_cases reg with rfl | rfl | rfl | rfl | rfl | rfl | rfl | rfl
  · exact decodeCommand_wellFormed d
  all_goals rfl

theorem decode_wellFormed (t : Transaction) : (decode t).wellFormed = true := by
  unfold decode
  split
  · exact decodeWrite_wellFormed _ _
  · exact decodeRead_wellFormed _

theorem encode_decodeCommand (d : Word) : encode (decodeCommand d) = writeWord 0#3 d := by
  by_cases h : reservedField d = 0#12
  · rw [← zero_append_opField h]
    generalize opField d = op
    revert op; decide
  · rw [decodeCommand_reserved h]; rfl

theorem encode_decodeWrite (reg : BitVec 3) (d : Word) :
    encode (decodeWrite reg d) = writeWord reg d := by
  rcases reg_cases reg with rfl | rfl | rfl | rfl | rfl | rfl | rfl | rfl
  · exact encode_decodeCommand d
  all_goals rfl

/-- A write loses no bit. -/
theorem encode_decode_of_write {t : Transaction} (h : rwField t = true) : encode (decode t) = t := by
  calc encode (decode t) = writeWord (regField t) (dataField t) := by
        rw [decode, if_pos h, encode_decodeWrite]
    _ = t := by
        conv => rhs; rw [← transaction_fields t, h]
        rfl

/-! ## Words outside the commands of R106 and R107 -/

/-- A word other than the sixteen command words without reserved bits. -/
def NoPlainCommand (t : Transaction) : Prop := ∀ op, t ≠ commandWord op

/-- The word of the same RW and REG with one reserved bit set. Outside the plain command words the
table and the decoder look at RW and REG only, so it stands for all of them. -/
def sampleWord (t : Transaction) : Transaction :=
  transaction (BitVec.ofBool (rwField t)) (regField t) 0x0010#16

theorem sampleWord_noPlainCommand (t : Transaction) : NoPlainCommand (sampleWord t) := by
  intro op h
  have hd := congrArg (fun u => reservedField (dataField u)) h
  simp only [sampleWord, commandWord, writeWord, dataField_transaction, reservedField_append] at hd
  exact absurd hd (by decide)

theorem sampleWord_and_head (t : Transaction) :
    sampleWord t &&& 0xF0000#20 = t &&& 0xF0000#20 := by
  conv => rhs; rw [← transaction_fields t]
  rw [sampleWord, transaction_and_head, transaction_and_head]

theorem reservedField_of_noPlainCommand {d : Word} (h : NoPlainCommand (writeWord 0#3 d)) :
    reservedField d ≠ 0#12 := by
  intro hd
  exact h (opField d) (by rw [commandWord, zero_append_opField hd])

theorem mnemonic_decodeWrite {reg : BitVec 3} {d : Word} (h : NoPlainCommand (writeWord reg d)) :
    (decodeWrite reg d).mnemonic = (decodeWrite reg 0x0010#16).mnemonic := by
  rcases reg_cases reg with rfl | rfl | rfl | rfl | rfl | rfl | rfl | rfl
  · have hd : decodeWrite 0#3 d = .illegalReserved d :=
      decodeCommand_reserved (reservedField_of_noPlainCommand h)
    rw [hd]; rfl
  all_goals rfl

theorem mnemonic_decode_sampleWord {t : Transaction} (h : NoPlainCommand t) :
    (decode t).mnemonic = (decode (sampleWord t)).mnemonic := by
  rw [← transaction_fields t] at h
  unfold decode
  cases hrw : rwField t
  · simp [sampleWord, hrw]
  · rw [hrw] at h
    simpa [sampleWord, hrw] using mnemonic_decodeWrite h

/-! ## The rows a word hits -/

/-- The two kinds of rows before the last: those that fix RW and REG only, and those that fix RW, REG
and the reserved field to a command word's, and OP in part or whole. -/
theorem exactRows_kinds :
    ∀ r ∈ exactRows, r.mask = 0xF0000#20 ∨
      r.mask &&& 0xFFFF0#20 = 0xFFFF0#20 ∧ r.pattern &&& 0xFFFF0#20 = 0x80000#20 := by
  decide

/-- A row of the second kind is hit by plain command words only. -/
theorem hits_eq_false_of_noPlainCommand {r : TableRow} {t : Transaction}
    (hm : r.mask &&& 0xFFFF0#20 = 0xFFFF0#20) (hp : r.pattern &&& 0xFFFF0#20 = 0x80000#20)
    (h : NoPlainCommand t) : r.hits t = false := by
  by_contra hit
  have hit : t &&& r.mask = r.pattern := by simpa [TableRow.hits] using hit
  have ht : t &&& 0xFFFF0#20 = 0x80000#20 := by rw [← hp, ← hit, BitVec.and_assoc, hm]
  exact h _ (eq_commandWord_of_and ht)

theorem hits_sampleWord {r : TableRow} (hr : r ∈ exactRows) {t : Transaction}
    (h : NoPlainCommand t) : r.hits t = r.hits (sampleWord t) := by
  rcases exactRows_kinds r hr with hm | ⟨hm, hp⟩
  · simp only [TableRow.hits, hm, sampleWord_and_head]
  · rw [hits_eq_false_of_noPlainCommand hm hp h,
      hits_eq_false_of_noPlainCommand hm hp (sampleWord_noPlainCommand t)]

/-- A plain command word hits the rows of its mnemonic. -/
theorem hits_commandWord :
    ∀ op : BitVec 4, ∀ r ∈ exactRows,
      r.hits (commandWord op) = (r.mnemonic == (decode (commandWord op)).mnemonic) := by
  decide

/-- A word with a reserved bit set hits the rows of its mnemonic. -/
theorem hits_sample :
    ∀ (rw : BitVec 1) (reg : BitVec 3), ∀ r ∈ exactRows,
      r.hits (transaction rw reg 0x0010#16) =
        (r.mnemonic == (decode (transaction rw reg 0x0010#16)).mnemonic) := by
  decide

/-- A row before the last is hit by exactly the words that decode to its mnemonic. -/
theorem exactRow_hits {r : TableRow} (hr : r ∈ exactRows) (t : Transaction) :
    r.hits t = (r.mnemonic == (decode t).mnemonic) := by
  by_cases h : NoPlainCommand t
  · rw [hits_sampleWord hr h, mnemonic_decode_sampleWord h]
    exact hits_sample _ _ r hr
  · obtain ⟨op, rfl⟩ : ∃ op, t = commandWord op := by simpa [NoPlainCommand] using h
    exact hits_commandWord op r hr

theorem exactRows_mnemonic_nodup : (exactRows.map TableRow.mnemonic).Nodup := by decide

/-- Every instruction but the reserved-bits one stands for a row before the last. -/
theorem mnemonic_mem_exactRows (i : Instr) :
    i.mnemonic ∈ exactRows.map TableRow.mnemonic ∨ ∃ v, i = .illegalReserved v := by
  cases i with
  | illegalReserved v => exact .inr ⟨v, rfl⟩
  | _ => exact .inl (by simp [exactRows, Instr.mnemonic])

/-- A word that decodes to the reserved-bits instruction hits the last row. -/
theorem catchAllRow_hits_of_decode {t : Transaction} {v : Word} (h : decode t = .illegalReserved v) :
    catchAllRow.hits t = true := by
  cases hrw : rwField t with
  | false =>
    have hread : ∀ reg, decodeRead reg ≠ .illegalReserved v := by
      intro reg hd
      rcases reg_cases reg with rfl | rfl | rfl | rfl | rfl | rfl | rfl | rfl <;> cases hd
    exact absurd (by simpa [decode, hrw] using h) (hread (regField t))
  | true =>
    rw [← encode_decode_of_write hrw, h]
    exact Laws.EncodedRow.hits_write _ 0#3 v

/-- A word that no row before the last stands for hits the last row. -/
theorem mnemonic_decode_cases (t : Transaction) :
    (decode t).mnemonic ∈ exactRows.map TableRow.mnemonic ∨
      (decode t).mnemonic = catchAllRow.mnemonic ∧ catchAllRow.hits t = true := by
  rcases mnemonic_mem_exactRows (decode t) with hm | ⟨v, hv⟩
  · exact .inl hm
  · exact .inr ⟨by rw [hv]; rfl, catchAllRow_hits_of_decode hv⟩

/-- How many rows before the last a word hits. -/
theorem countP_hits_exactRows (t : Transaction) :
    exactRows.countP (fun r => r.hits t) =
      (exactRows.map TableRow.mnemonic).count (decode t).mnemonic := by
  rw [List.count, List.countP_map]
  exact List.countP_congr fun r hr => by simp [exactRow_hits hr t]

/-- The first row hit is the row of the decoded instruction. -/
theorem find_hits_opcodeTable (t : Transaction) :
    (opcodeTable.find? fun r => r.hits t).map TableRow.mnemonic = some (decode t).mnemonic := by
  rw [opcodeTable, List.find?_append]
  cases hf : exactRows.find? (fun r => r.hits t) with
  | some r =>
    have hit : r.hits t = true := by simpa using List.find?_some hf
    simpa [exactRow_hits (List.mem_of_find?_eq_some hf) t] using hit
  | none =>
    have hmiss : ∀ r ∈ exactRows, r.mnemonic ≠ (decode t).mnemonic := fun r hr => by
      simpa [exactRow_hits hr t] using List.find?_eq_none.1 hf r hr
    rcases mnemonic_decode_cases t with hm | ⟨hm, hit⟩
    · obtain ⟨r, hr, hrm⟩ := List.mem_map.1 hm
      exact absurd hrm (hmiss r hr)
    · simp [hit, hm]

/-- A word that misses the last row hits exactly one row. -/
theorem countP_hits_opcodeTable {t : Transaction} (h : catchAllRow.hits t = false) :
    opcodeTable.countP (fun r => r.hits t) = 1 := by
  have hm : (decode t).mnemonic ∈ exactRows.map TableRow.mnemonic :=
    (mnemonic_decode_cases t).resolve_right (by simp [h])
  have hexact := List.count_eq_one_of_mem exactRows_mnemonic_nodup hm
  rw [opcodeTable, List.countP_append, countP_hits_exactRows, hexact]
  simp [h]

/-- Settles O4: a row before the last is hit by exactly the words of its mnemonic, and the mnemonics
differ. -/
theorem decoderIsTheOpcodeTable : Obligations.DecoderIsTheOpcodeTable := fun t =>
  ⟨decode_wellFormed t, encode_decode_of_write, find_hits_opcodeTable t,
    (countP_hits_exactRows t).trans_le
      (List.nodup_iff_count_le_one.1 exactRows_mnemonic_nodup _),
    countP_hits_opcodeTable⟩

end Sys2Proof
end

section
/-! What the illegal command words and the ignored writes do (30_encoding.md R107 to R109). -/

namespace Sys2Proof.Machine

open Sys2Proof.Claims

/-- Decoding a write as 45_host_access.md writes it, `0x80000 | v` to `0xF0000 | v`. -/
theorem decode_or (reg : BitVec 3) (v : Word) :
    decode (writeWord reg 0#16 ||| v.setWidth 20) = decodeWrite reg v := by
  rw [writeWord_or, decode_writeWord]

/-! ## Ignored writes -/

/-- Settles O46: each word is a `writeWord` of its register, and the meanings answer the same state. -/
theorem writesToReadOnlyRegistersAreIgnored :
    Obligations.WritesToReadOnlyRegistersAreIgnored := fun _ v =>
  ⟨decode_or 1#3 v, decode_or 2#3 v, decode_or 5#3 v, decode_or 6#3 v, rfl, rfl, rfl, rfl⟩

/-! ## Illegal command words -/

/-- The instructions of the illegal rows of the opcode table (R107, R108). -/
def IsIllegal (i : Instr) : Prop :=
  i = .illegalOp9 ∨ (∃ a, i = .illegalOpAB a) ∨ (∃ a, i = .illegalOpCF a) ∨
    ∃ v, i = .illegalReserved v

theorem raiseError_eq_rejected (e : Error) (s : State) : raiseError e s = Rejected e s :=
  raiseError_eq e s

theorem exec_isIllegal {i : Instr} (h : IsIllegal i) (s : State) :
    exec i s = .next (Rejected .illegalCmd s) :=
  (exec_illegal h s).trans (congrArg _ (raiseError_eq_rejected .illegalCmd s))

/-- `illegalWord` in the fields of the command word: OP is 0x9 or more where no reserved bit is set. -/
theorem nine_le_opField {d : Word} (h : illegalWord d = true) (hr : reservedField d = 0#12) :
    9 ≤ (opField d).toNat := by
  have hop : (opField d).toNat = d.toNat % 16 := by simp [opField]
  have hres : d.toNat / 16 = 0 := by
    have hn := congrArg BitVec.toNat hr
    simp only [reservedField, BitVec.extractLsb'_toNat, Nat.shiftRight_eq_div_pow,
      BitVec.toNat_ofNat] at hn
    omega
  simpa [illegalWord, hres, hop] using h

/-- The opcodes of R107. -/
theorem decodeCommand_illegalOp :
    ∀ op : BitVec 4, 9 ≤ op.toNat →
      decodeCommand (0#12 ++ op) = .illegalOp9 ∨
      (∃ a, decodeCommand (0#12 ++ op) = .illegalOpAB a) ∨
      ∃ b, decodeCommand (0#12 ++ op) = .illegalOpCF b := by
  decide

theorem decodeCommand_isIllegal {d : Word} (h : illegalWord d = true) :
    IsIllegal (decodeCommand d) := by
  by_cases hr : reservedField d = 0#12
  · rw [← zero_append_opField hr]
    exact (decodeCommand_illegalOp _ (nine_le_opField h hr)).imp_right (.imp_right .inl)
  · exact .inr (.inr (.inr ⟨d, decodeCommand_reserved hr⟩))

/-- Settles O47: an illegal command word decodes to an illegal instruction, which raises ILLEGAL_CMD. -/
theorem illegalCommandWordsRaiseIllegalCmd : Obligations.IllegalCommandWordsRaiseIllegalCmd := by
  refine ⟨fun s d h => ?_, fun s a b v => ⟨?_, ?_, ?_, ?_⟩⟩
  · rw [show decode (0x80000#20 ||| d.setWidth 20) = decodeCommand d from decode_or 0#3 d]
    exact exec_isIllegal (decodeCommand_isIllegal h) s
  · exact exec_isIllegal (.inl rfl) s
  · exact exec_isIllegal (.inr (.inl ⟨a, rfl⟩)) s
  · exact exec_isIllegal (.inr (.inr (.inl ⟨b, rfl⟩))) s
  · exact exec_isIllegal (.inr (.inr (.inr ⟨v, rfl⟩))) s

end Sys2Proof.Machine
end

section
/-! The PRNG (40_prng.md): the bits of the LFSR step (R140), the command NEXT (R150), and what each
operation does to `S` (R143). -/

namespace Sys2Proof.Machine

open Sys2Proof.Config Sys2Proof.Claims

/-! ## The LFSR step -/

theorem getLsbD_lfsrNext_shift (s : Word) {k : Nat} (hk : k ≤ 14) :
    (lfsrNext s).getLsbD k = s.getLsbD (k + 1) := by
  have h : k < 15 := by omega
  rw [lfsrNext, BitVec.getLsbD_append, if_pos h, BitVec.getLsbD_extractLsb']
  simp [h, Nat.add_comm]

theorem getLsbD_lfsrNext_top (s : Word) :
    (lfsrNext s).getLsbD 15 = (s.getLsbD 0 ^^ s.getLsbD 2 ^^ s.getLsbD 3 ^^ s.getLsbD 5) := by
  rw [lfsrNext, BitVec.getLsbD_append]
  simp

/-- R140's arithmetic form: both sides agree at the bits below the top and at the top bit. -/
theorem lfsrNext_eq_shift_or (s : Word) :
    lfsrNext s = (s >>> 1) |||
      ((s ^^^ (s >>> 2) ^^^ (s >>> 3) ^^^ (s >>> 5)) &&& 1#16) <<< 15 := by
  apply BitVec.eq_of_getLsbD_eq
  intro k hk
  rcases Nat.lt_or_ge k 15 with h | h
  · rw [getLsbD_lfsrNext_shift s (by omega)]
    simp [h, Nat.add_comm]
  · obtain rfl : k = 15 := by omega
    rw [getLsbD_lfsrNext_top]
    simp

/-- Settles O12: the bits below the top, the top bit, and the arithmetic form they amount to. -/
theorem lfsrShiftsTapParityIntoTheTopBit : Obligations.LfsrShiftsTapParityIntoTheTopBit := fun s =>
  ⟨fun _ hk => getLsbD_lfsrNext_shift s hk, getLsbD_lfsrNext_top s, lfsrNext_eq_shift_or s⟩

/-! ## NEXT -/

/-- Settles O17: NEXT is the BUSY gate over one draw. -/
theorem nextDrawsOnceUnlessBusy : Obligations.NextDrawsOnceUnlessBusy := by
  refine ⟨by decide, fun s => ⟨fun hb => ⟨exec_gated_idle .next hb, rfl⟩, fun hb => ?_⟩⟩
  rw [exec_gated_busy .next hb, raiseError_eq_rejected]

/-! ## What each operation does to `S` -/

@[simp] theorem raiseError_S (e : Error) (s : State) : (raiseError e s).S = s.S := by
  rw [raiseError_eq]

@[simp] theorem requestStop_S (s : State) : (requestStop s).S = s.S := by
  rw [requestStop_eq]

@[simp] theorem answerUnstable_S (v : Word) (s : State) : (answerUnstable v s).S = s.S := by
  rcases answerUnstable_cases v s with ⟨_, e⟩ | ⟨_, e⟩ <;> rw [e]
  rfl

@[simp] theorem writeCellData_S (v : Word) (s : State) : (writeCellData v s).S = s.S := by
  rcases writeCellData_cases v s with ⟨_, e⟩ | ⟨_, _, e⟩ | ⟨_, _, _, e⟩ | ⟨_, _, _, e⟩ <;> simp [e]

@[simp] theorem countIteration_S (s : State) : (countIteration s).S = s.S := by
  rcases countIteration_cases s with ⟨_, e⟩ | ⟨_, _, e⟩ | ⟨_, _, e⟩ <;> simp [e]

@[simp] theorem performRunStep_S (s : State) : (performRunStep s).S = s.S := by
  unfold performRunStep
  split <;> simp

@[simp] theorem performInit_S (s : State) : (performInit s).S = lfsrNext^[NI] s.S := by
  rw [performInit_eq]

@[simp] theorem performClear_S (s : State) : (performClear s).S = s.S := by
  rw [performClear_eq]

@[simp] theorem performEvolve_S (s : State) : (performEvolve s).S = s.S := by
  rw [performEvolve_eq]

@[simp] theorem performRender_S (s : State) : (performRender s).S = s.S := by
  rw [performRender_eq]

@[simp] theorem hardReset_S (issued : Nat) (s : State) : (hardReset issued s).S = SEED :=
  resetBlock_S _

@[simp] theorem powerUp_S (issued : Nat) (s : State) : (powerUp issued s).S = SEED :=
  hardReset_S issued s

/-- Of the actions behind the BUSY gate only NEXT's draws. -/
theorem Gated.act_S {i : Instr} {act : State → State} (h : Gated i act) (s : State) :
    (act s).S = s.S ∨ i = .next ∧ (act s).S = lfsrNext s.S := by
  cases h with
  | next => exact .inr ⟨rfl, draw_S s⟩
  | wrCellData v => exact .inl (writeCellData_S v s)
  | _ => exact .inl rfl

variable {s t : State}

/-- A transaction keeps `S`, or it is an accepted NEXT. -/
theorem exec_S_cases {i : Instr} (h : exec i s = .next t) :
    t.S = s.S ∨ i = .next ∧ s.busy = false ∧ t.S = lfsrNext s.S := by
  rcases exec_cases i s with
    ⟨v, e⟩ | ⟨v, e⟩ | e | ⟨_, e⟩ | ⟨_, e⟩ | e | ⟨act, hg, e⟩ <;>
    obtain rfl := Host.Outcome.next.inj (e.symm.trans h)
  · exact .inl (answer_S s v)
  · exact .inl (answerUnstable_S v s)
  · exact .inl rfl
  · exact .inl (requestStop_S s)
  · exact .inl (clearError_S s)
  · exact .inl (raiseError_S _ s)
  · rcases unlessBusy_cases act s with ⟨_, e⟩ | ⟨hb, e⟩ <;> rw [e]
    · exact .inl (raiseError_S .busy s)
    · exact (hg.act_S s).imp_right fun ⟨hi, hS⟩ => ⟨hi, hb, hS⟩

/-- An engine step keeps `S`, or it performs INIT. -/
theorem engineStep_S_cases (h : engineStep s = .next t) :
    t.S = s.S ∨ s.busy = true ∧ s.op = .init ∧ t.S = lfsrNext^[NI] s.S := by
  rcases engineStep_cases s with
    ⟨_, e⟩ | ⟨_, _, e⟩ | ⟨hb, ho, e⟩ | ⟨_, _, e⟩ | ⟨_, _, e⟩ | ⟨_, _, e⟩ | ⟨_, _, e⟩
  case inr.inl => rw [e] at h; cases h
  all_goals obtain rfl := Host.Outcome.next.inj (e.symm.trans h)
  · exact .inl rfl
  · exact .inr ⟨hb, ho, performInit_S s⟩
  · exact .inl (performClear_S s)
  · exact .inl (performEvolve_S s)
  · exact .inl (performRender_S s)
  · exact .inl (performRunStep_S s)

/-- Settles O18: the rules on `S` of the agent that moves. -/
theorem onlyNextInitAndResetChangeThePrng : Obligations.OnlyNextInitAndResetChangeThePrng := by
  intro s t h
  rcases step_cases s with
    ⟨hin, e⟩ | ⟨rest, hin, e⟩ | ⟨w, rest, hin, e⟩ | ⟨k, p, rest, hin, e⟩ | ⟨k, rest, hin, e⟩
  · exact (engineStep_S_cases (e.symm.trans h)).imp_right fun hInit => .inr (.inl ⟨.inl hin, hInit⟩)
  · exact (engineStep_S_cases (e.symm.trans h)).imp_right fun hInit =>
      .inr (.inl ⟨.inr ⟨rest, hin⟩, hInit⟩)
  · exact (exec_S_cases (e.symm.trans h)).imp_right fun ⟨hi, hNext⟩ =>
      .inl ⟨⟨w, rest, hin, hi⟩, hNext⟩
  · obtain rfl := Host.Outcome.next.inj (e.symm.trans h)
    exact .inr (.inr (.inr ⟨.inl ⟨k, p, rest, hin⟩, hardReset_S k _⟩))
  · obtain rfl := Host.Outcome.next.inj (e.symm.trans h)
    exact .inr (.inr (.inr ⟨.inr ⟨k, rest, hin⟩, powerUp_S k _⟩))

end Sys2Proof.Machine
end

section
/-! The initializer (41_initializer.md): how a multi-step command is accepted or rejected (R160, R170,
R181, R200), what INIT writes (R161 to R164) and what CLEAR writes (R171). -/

namespace Sys2Proof.Machine

open Sys2Proof.Config Sys2Proof.Claims

/-! ## Acceptance -/

/-- A gated transaction while BUSY is rejected (60_exceptions.md R303). -/
theorem exec_gated_rejected {i : Instr} {act : State → State} {s : State} (h : Gated i act)
    (hb : s.busy = true) : exec i s = .next (Rejected .busy s) := by
  rw [exec_gated_busy h hb, raiseError_eq_rejected]

theorem startsOperation_of_gated {i : Instr} {t : Transaction} {o : Op} (hd : decode t = i)
    (h : Gated i (acceptOp o)) : StartsOperation i t o :=
  ⟨hd, fun _ => ⟨exec_gated_idle h, exec_gated_rejected h⟩⟩

/-- Settles O19: the four commands are the BUSY gate over `acceptOp`. -/
theorem multiStepCommandsSetBusyOrAreRejected :
    Obligations.MultiStepCommandsSetBusyOrAreRejected :=
  ⟨startsOperation_of_gated (by decide) .init, startsOperation_of_gated (by decide) .clear,
    startsOperation_of_gated (by decide) .evolve, startsOperation_of_gated (by decide) .render⟩

/-! ## INIT -/

/-- The rule of birth in numbers (R163). -/
theorem birth_iff (v : Word) : birth v = true ↔ v.toNat % 10 = 1 := by
  simp [birth]

/-- The cell the `k`-th draw decides lies in the grid, off the border (R162). -/
theorem interior_idx_of_draw {k : Nat} (hk : k < NI) :
    idx (1 + k / (W - 2)) (1 + k % (W - 2)) < N ∧
      interior (idx (1 + k / (W - 2)) (1 + k % (W - 2))) = true := by
  have hr : 1 + k / (W - 2) ≤ H - 2 := by simp only [NI, W, H] at *; omega
  have hc : 1 + k % (W - 2) ≤ W - 2 := by simp only [W]; omega
  have hcW : 1 + k % (W - 2) < W := by simp only [W] at *; omega
  have hlt : idx (1 + k / (W - 2)) (1 + k % (W - 2)) < N :=
    idx_lt (by simp only [H] at *; omega) hcW
  refine ⟨hlt, (interior_iff hlt).2 ?_⟩
  rw [row_idx hcW, col_idx hcW]
  exact ⟨⟨Nat.le_add_right .., hr⟩, Nat.le_add_right .., hc⟩

/-- The `k`-th draw of INIT decides the `k`-th interior cell in row-major order (R162, R163). -/
theorem initCells_cell_of_draw (s : State) {k : Nat} (hk : k < NI) :
    cell (initCells s).G (idx (1 + k / (W - 2)) (1 + k % (W - 2))) =
      if (lfsrNext^[k + 1] s.S).toNat % 10 = 1 then ALIVE else DEAD := by
  obtain ⟨hlt, hint⟩ := interior_idx_of_draw hk
  simp only [initCells_cell s hlt, interiorBelow_idx hk, hint, birth_iff, true_and]

/-- INIT leaves the border DEAD (R164). -/
theorem initCells_cell_of_border (s : State) {i : Nat} (hi : i < N) (hb : border i = true) :
    cell (initCells s).G i = DEAD := by
  rw [initCells_cell s hi, interior_eq_not_border, hb, if_neg (by simp)]

/-- Settles O22: INIT as one update, and its grid by draws and border. -/
theorem initSeedsTheInteriorInRowMajorOrder : Obligations.InitSeedsTheInteriorInRowMajorOrder :=
  fun s hb ho =>
    ⟨(initCells s).G, (initCells s).C,
      (engineStep_init hb ho).trans (congrArg _ (performInit_eq s)),
      fun _ hk => initCells_cell_of_draw s hk,
      fun _ hi hbord => initCells_cell_of_border s hi hbord,
      fun _ hi => initCells_count s hi⟩

/-! ## CLEAR -/

/-- Settles O23: CLEAR as one update with constant stores. -/
theorem clearEmptiesTheGridAndTheCounts : Obligations.ClearEmptiesTheGridAndTheCounts :=
  fun s hb ho =>
    ⟨Vector.replicate N DEAD, Vector.replicate N 0#4,
      (engineStep_clear hb ho).trans (congrArg _ (performClear_eq s)),
      fun i _ => cell_replicate i, fun i _ => count_replicate i⟩

end Sys2Proof.Machine
end

section
/-! The renderer (42_renderer.md): what RENDER issues (R182) and the display it leaves (R184). -/

namespace Sys2Proof.Machine

open Sys2Proof.Claims

/-- The writes of a RENDER are the numbered ones, in the order of their numbers (R182). -/
theorem renderWrites_eq_map_renderWrite (g : Grid) :
    renderWrites g = (List.range 4000).map (renderWrite g) :=
  renderWrites_eq_map g

/-- Write number `off` of a RENDER of `s` decides the display byte at `off`, in every state that holds
the rendered memory and the power-up bytes of `s` (R184). -/
theorem displayByte_of_rendered {s t : State} (hd : t.display = (renderBody s).display)
    (hp : t.powerUps = s.powerUps) (off : Nat) :
    displayByte t off = if off < 4000 then (renderWrite s.G off).data else displayByte s off := by
  have hread : Memory.read? t.display off =
      if off < 4000 then some (renderWrite s.G off).data else Memory.read? s.display off :=
    hd ▸ renderBody_read s off
  unfold displayByte
  rw [hread, hp]
  by_cases h : off < 4000
  · rw [if_pos h, if_pos h, Option.getD_some]
  · rw [if_neg h, if_neg h]

/-- Settles O32: RENDER as one update, its record by number and its display by offset. -/
theorem renderIssuesTheWritesInOrder : Obligations.RenderIssuesTheWritesInOrder := fun s hb ho => by
  refine ⟨(renderBody s).display, ?_, displayByte_of_rendered rfl rfl⟩
  rw [engineStep_render hb ho, performRender_eq, renderWrites_eq_map_renderWrite]

end Sys2Proof.Machine
end

section
/-! The evolver (43_evolver.md): the neighbour count as the spec's sum (R202), and what EVOLVE writes
(R201, R204, R205, R208). -/

namespace Sys2Proof.Machine

open Sys2Proof.Config Sys2Proof.Claims

/-- The count over the list of neighbours is the sum over the eight offsets (R202); it holds at the border
too, because both subtractions stop at 0. -/
theorem ncount_eq_neighbourSum (g : Grid) (i : Nat) : ncount g i = neighbourSum g i := by
  have hpred (n : Nat) : ((n : Int) + -1).toNat = n - 1 := by omega
  have hsucc (n : Nat) : ((n : Int) + 1).toNat = n + 1 := by omega
  simp only [ncount, neighbours, neighbourSum, List.countP_cons, List.countP_nil, List.map_cons,
    List.map_nil, List.sum_cons, List.sum_nil, beq_iff_eq, ne_eq, Prod.mk.injEq, Int.reduceNeg,
    neg_eq_zero, one_ne_zero, not_true_eq_false, not_false_eq_true, true_and, false_and, and_true,
    and_false, ↓reduceIte, hpred, hsucc, Int.add_zero, Int.toNat_natCast]
  omega

/-- The generation's count of an interior cell, as a number (R202, R203). -/
theorem evolveBody_count_of_interior (s : State) {i : Nat} (hi : i < N) (hint : interior i = true) :
    (count (evolveBody s).C i).toNat = neighbourSum s.G i := by
  rw [evolveBody_count s hi, if_pos hint, ncount_toNat, ncount_eq_neighbourSum]

/-- The generation's interior cell is the rule of its neighbour sum (R204). -/
theorem evolveBody_cell_of_interior (s : State) {i : Nat} (hi : i < N) (hint : interior i = true) :
    cell (evolveBody s).G i = rule (cell s.G i) (neighbourSum s.G i) := by
  rw [evolveBody_cell s hi, if_pos hint, ncount_eq_neighbourSum]

/-- A generation writes no border cell and no border count (R205). -/
theorem evolveBody_keeps_border (s : State) {i : Nat} (hi : i < N) (hb : border i = true) :
    cell (evolveBody s).G i = cell s.G i ∧ count (evolveBody s).C i = count s.C i := by
  have hint : ¬ interior i = true := by simp [interior_eq_not_border, hb]
  exact ⟨by rw [evolveBody_cell s hi, if_neg hint], by rw [evolveBody_count s hi, if_neg hint]⟩

/-- Settles O24: EVOLVE as one update, and its stores by interior and border. -/
theorem evolveCountsThenAppliesTheCellRule : Obligations.EvolveCountsThenAppliesTheCellRule :=
  fun s hb ho =>
    ⟨(evolveBody s).G, (evolveBody s).C,
      (engineStep_evolve hb ho).trans (congrArg _ (performEvolve_eq s)),
      fun _ hi hint =>
        ⟨evolveBody_count_of_interior s hi hint, evolveBody_cell_of_interior s hi hint⟩,
      fun _ hi hbord => evolveBody_keeps_border s hi hbord⟩

end Sys2Proof.Machine
end

section
/-! The main loop (44_mainloop.md): the commands NOP, RUN, STOP and CLRERR (R240, R241, R244, R245), and
one step of a run as a RENDER step and an EVOLVE step (R242, R243). -/

namespace Sys2Proof.Machine

open Sys2Proof.Claims

variable {s : State}

/-! ## The commands -/

/-- Settles O20: RUN is the BUSY gate over `acceptRun`. -/
theorem runReadsGenLimitOnceAtAcceptance : Obligations.RunReadsGenLimitOnceAtAcceptance :=
  ⟨by decide, fun _ => ⟨exec_gated_idle .run, exec_gated_rejected .run⟩⟩

theorem requestStop_running (h : s.running = true) : requestStop s = { s with stopPend := true } :=
  if_pos h

theorem requestStop_not_running (h : s.running = false) : requestStop s = s :=
  if_neg (by simp [h])

/-- Settles O21: none of the three commands looks at BUSY, and STOP looks at RUNNING only. -/
theorem nopStopAndClrerrAreAlwaysAccepted : Obligations.NopStopAndClrerrAreAlwaysAccepted :=
  ⟨by decide, by decide, by decide, fun _ =>
    ⟨rfl, fun h => congrArg _ (requestStop_running h), fun h => congrArg _ (requestStop_not_running h),
      rfl⟩⟩

/-! ## The bodies of RENDER and EVOLVE beside the pending operation -/

theorem acceptOp_of_busy (h : s.busy = true) (o : Op) : acceptOp o s = { s with op := o } := by
  rw [acceptOp, ← h]

theorem acceptOp_of_pending {o : Op} (h : s.busy = true) (ho : s.op = o) : acceptOp o s = s := by
  rw [acceptOp_of_busy h, ← ho]

theorem acceptOp_finishOp (o : Op) (s : State) : acceptOp o (finishOp s) = acceptOp o s := rfl

theorem finishOp_acceptOp (o : Op) (s : State) : finishOp (acceptOp o s) = finishOp s := rfl

/-- The RENDER body neither reads nor writes `op` and BUSY. -/
theorem renderBody_acceptOp (o : Op) (s : State) :
    renderBody (acceptOp o s) = acceptOp o (renderBody s) := by
  simp only [renderBody, dispWrites_eq]
  rfl

/-- The EVOLVE body neither reads nor writes `op` and BUSY. -/
theorem evolveBody_acceptOp (o : Op) (s : State) :
    evolveBody (acceptOp o s) = acceptOp o (evolveBody s) := by
  obtain ⟨hG, hC⟩ := evolveBody_congr (acceptOp_G s o) (acceptOp_C s o)
  rw [evolveBody_frame (acceptOp o s), evolveBody_frame s, hG, hC]
  generalize (evolveBody s).G = g
  generalize (evolveBody s).C = b
  rfl

/-- RENDER is its body between acceptance and completion (42_renderer.md R182). -/
theorem engineStep_acceptOp_render (s : State) :
    engineStep (acceptOp .render s) = .next (finishOp (renderBody s)) := by
  rw [engineStep_render (acceptOp_busy s .render) (acceptOp_op s .render), performRender,
    renderBody_acceptOp, finishOp_acceptOp]

/-- EVOLVE is its body between acceptance and completion, here right after another operation completed
(43_evolver.md R201). -/
theorem engineStep_acceptOp_evolve (s : State) :
    engineStep (acceptOp .evolve (finishOp s)) = .next (finishOp (evolveBody s)) := by
  rw [acceptOp_finishOp, engineStep_evolve (acceptOp_busy s .evolve) (acceptOp_op s .evolve),
    performEvolve, evolveBody_acceptOp, finishOp_acceptOp]

/-! ## One step of a run -/

theorem performRunStep_stop (h : s.stopPend = true) : performRunStep s = endRun s := if_pos h

theorem performRunStep_iterate (h : s.stopPend = false) :
    performRunStep s = countIteration (evolveBody (renderBody s)) := if_neg (by simp [h])

/-- The end of an iteration (R242), told from the state in which the iteration's EVOLVE has completed. -/
theorem countIteration_of_run {w : Word} {inf : Bool} (hb : s.busy = true) (ho : s.op = .run)
    (hinf : s.runInf = inf) (hleft : s.runLeft = w) :
    countIteration s =
      if inf = true then { finishOp s with op := .run, busy := true }
      else if w - 1#16 = 0#16 then
        { finishOp s with
          op := .none, busy := false, running := false, stopPend := false, runLeft := 0#16 }
      else { finishOp s with op := .run, busy := true, runLeft := w - 1#16 } := by
  subst hinf hleft
  have hrun : s = acceptOp .run (finishOp s) := by
    rw [acceptOp_finishOp, acceptOp_of_pending hb ho]
  rcases countIteration_cases s with ⟨hi, e⟩ | ⟨hi, h0, e⟩ | ⟨hi, h0, e⟩
  · rw [e, if_pos hi]
    exact hrun
  · rw [e, if_neg (by simp [hi]), if_neg h0]
    exact congrArg (fun t : State => { t with runLeft := s.runLeft - 1#16 }) hrun
  · rw [e, if_neg (by simp [hi]), if_pos h0]
    rfl

/-- Settles O34: the RENDER step and the EVOLVE step complete the iteration's two bodies, and the count
follows. The iterations left are not needed: the model's `run_left` wraps at 0 (log 7). -/
theorem runStepRendersThenEvolves : Obligations.RunStepRendersThenEvolves := by
  intro s hb ho _
  have hstep : engineStep s = .next (performRunStep s) := engineStep_run hb ho
  refine ⟨fun hs => ?_, fun hs => ⟨finishOp (renderBody s), finishOp (evolveBody (renderBody s)),
    ?_, ?_, ?_⟩⟩
  · rw [hstep, performRunStep_stop hs]
    rfl
  · rw [← acceptOp_of_busy hb, engineStep_acceptOp_render]
  · exact engineStep_acceptOp_evolve _
  · rw [hstep, performRunStep_iterate hs]
    exact congrArg _ (countIteration_of_run (by simp [hb]) (by simp [ho]) (by simp) (by simp))

end Sys2Proof.Machine
end

section
/-! Host access (45_host_access.md): what a read answers (R270 to R279), and the writes of CELL_ADDR,
GEN_LIMIT (R280, R282) and CELL_DATA (R281). -/

namespace Sys2Proof.Machine

open Sys2Proof.Config Sys2Proof.Claims

variable {s : State} {v : Word}

/-! ## Reads -/

theorem decode_of_read {t : Transaction} (h : rwField t = false) :
    decode t = decodeRead (regField t) := by
  simp [decode, h]

/-- The decoder looks at RW and REG of a read and nothing else (R101, R111). -/
theorem decode_and_head_of_read {t : Transaction} (h : rwField t = false) :
    decode (t &&& 0xF0000#20) = decode t := by
  have hhead : t &&& 0xF0000#20 = readWord (regField t) := by
    conv => lhs; rw [← transaction_fields t, h]
    exact transaction_and_head 0#1 (regField t) (dataField t)
  rw [hhead, decode_readWord, decode_of_read h]

/-- Every read answers the register's exact value, through `answer` where it is exact at all times and
through `answerUnstable` where it is exact while BUSY = 0 only (R271 to R279). -/
theorem exec_decodeRead_cases (reg : BitVec 3) (s : State) :
    exec (decodeRead reg) s = .next (answer (viewReg reg s) s) ∨
      exec (decodeRead reg) s = .next (answerUnstable (viewReg reg s) s) := by
  rcases reg_cases reg with rfl | rfl | rfl | rfl | rfl | rfl | rfl | rfl
  · exact .inl rfl
  · exact .inl rfl
  · exact .inr rfl
  · exact .inl rfl
  · exact .inr rfl
  · exact .inr rfl
  · exact .inl rfl
  · exact .inl rfl

/-- Settles O43: a read is one answer, and only an unstable one while BUSY draws a free value. -/
theorem readsChangeNoStateOfTheBlock : Obligations.ReadsChangeNoStateOfTheBlock := by
  intro s t ht
  refine ⟨(decode_and_head_of_read ht).symm, ?_⟩
  rw [decode_of_read ht]
  rcases exec_decodeRead_cases (regField t) s with h | h
  · exact ⟨viewReg (regField t) s, s.freeReads, h, fun _ => ⟨rfl, rfl⟩⟩
  · rcases answerUnstable_cases (viewReg (regField t) s) s with ⟨hb, e⟩ | ⟨_, e⟩ <;> rw [e] at h
    · exact ⟨freeRead s.freeReads, s.freeReads + 1, h, fun hidle => by simp [hb] at hidle⟩
    · exact ⟨viewReg (regField t) s, s.freeReads, h, fun _ => ⟨rfl, rfl⟩⟩

/-- STATUS as read is its seven bits zero-extended (R39, R272). -/
theorem statusWord_eq_setWidth (s : State) : statusWord s = (statusBits s).setWidth 16 := by
  have hcode : s.errcode.setWidth 12 = 0#9 ++ s.errcode := BitVec.setWidth_eq_append (by decide)
  simp only [statusWord, statusBits, BitVec.setWidth_append]
  simp [hcode]

/-- Settles O40: the five meanings are `answer` of the register; only STATUS is assembled from fields. -/
theorem exactReadsAtAllTimes : Obligations.ExactReadsAtAllTimes :=
  ⟨by decide, by decide, by decide, by decide, by decide, fun s =>
    ⟨rfl, by rw [← statusWord_eq_setWidth]; rfl, rfl, rfl, rfl⟩⟩

/-! ## Writes of CELL_ADDR and GEN_LIMIT -/

/-- Settles O44: both writes are the BUSY gate over an update of one register. -/
theorem addressAndLimitWritesStoreOrAreRejected :
    Obligations.AddressAndLimitWritesStoreOrAreRejected := fun _ v =>
  ⟨decode_or 3#3 v, decode_or 7#3 v,
    fun hb => ⟨exec_gated_idle (.wrCellAddr v) hb, exec_gated_idle (.wrGenLimit v) hb⟩,
    fun hb => ⟨exec_gated_rejected (.wrCellAddr v) hb, exec_gated_rejected (.wrGenLimit v) hb⟩⟩

/-! ## Writes of CELL_DATA -/

theorem legalCellValue_iff : legalCellValue v = true ↔ v = 0x0000#16 ∨ v = 0x00FF#16 := by
  simp [legalCellValue]

/-- The byte a legal write stores, told from the value written (R110). -/
theorem extractLsb'_of_legal (h : v = 0x0000#16 ∨ v = 0x00FF#16) :
    v.extractLsb' 0 8 = if v = 0x00FF#16 then ALIVE else DEAD := by
  rcases h with rfl | rfl <;> decide

theorem writeCellData_of_range (v : Word) (h : N ≤ s.cellAddr.toNat) :
    writeCellData v s = Rejected .range s := by
  rw [writeCellData, if_pos h, raiseError_eq_rejected]

theorem writeCellData_of_border (v : Word) (h : s.cellAddr.toNat < N)
    (hb : border s.cellAddr.toNat = true) : writeCellData v s = Rejected .border s := by
  rw [writeCellData, if_neg (Nat.not_le.2 h), if_pos hb, raiseError_eq_rejected]

theorem writeCellData_of_interior (v : Word) (h : s.cellAddr.toNat < N)
    (hb : border s.cellAddr.toNat = false) :
    writeCellData v s =
      if v = 0x0000#16 ∨ v = 0x00FF#16 then
        setCell s.cellAddr.toNat (if v = 0x00FF#16 then ALIVE else DEAD) s
      else Rejected .badValue s := by
  rw [writeCellData, if_neg (Nat.not_le.2 h), if_neg (by simp [hb])]
  by_cases hv : v = 0x0000#16 ∨ v = 0x00FF#16
  · rw [if_neg (by simp [legalCellValue_iff.2 hv]), if_pos hv, extractLsb'_of_legal hv]
  · rw [if_pos (by simpa using mt legalCellValue_iff.1 hv), if_neg hv, raiseError_eq_rejected]

/-- Settles O45: the BUSY gate over `writeCellData`, whose branches are the remaining checks. -/
theorem cellDataWriteChecksInOrderThenWritesOneCell :
    Obligations.CellDataWriteChecksInOrderThenWritesOneCell := by
  intro s v
  have hidle : s.busy = false → exec (.wrCellData v) s = .next (writeCellData v s) :=
    exec_gated_idle (.wrCellData v)
  refine ⟨decode_or 4#3 v, exec_gated_rejected (.wrCellData v), fun hb hr => ?_,
    fun hb hr hbord => ?_, fun hb hr hbord h0 hFF => ?_, fun hb hr hbord hv => ?_⟩
  · rw [hidle hb, writeCellData_of_range v hr]
  · rw [hidle hb, writeCellData_of_border v hr hbord]
  · rw [hidle hb, writeCellData_of_interior v hr hbord, if_neg (not_or.2 ⟨h0, hFF⟩)]
  · refine ⟨(setCell s.cellAddr.toNat (if v = 0x00FF#16 then ALIVE else DEAD) s).G, ?_,
      fun i _ => ?_⟩
    · rw [hidle hb, writeCellData_of_interior v hr hbord, if_pos hv]
      rfl
    · simp only [cell_setCell, hr, true_and]

end Sys2Proof.Machine
end

section
/-! Errors (60_exceptions.md): what `raise Error` records (R301), and which error a transaction raises (R302
to R304), told from its word and from its instruction. -/

namespace Sys2Proof.Machine

open Sys2Proof.Config Sys2Proof.Claims

variable {s t : State} {i : Instr} {e : Error} {w : Transaction} {v : Word}

/-! ## Recording an error -/

theorem raiseError_recorded (e : Error) (h : s.err = true) : raiseError e s = s :=
  if_neg (by simp [h])

theorem raiseError_first (e : Error) (h : s.err = false) :
    raiseError e s = { s with err := true, errcode := e.code } :=
  if_pos h

/-- Settles O48: the two branches of `raiseError`, with the code of each error. -/
theorem raiseErrorKeepsTheFirstCode : Obligations.RaiseErrorKeepsTheFirstCode := fun _ =>
  ⟨fun h e => raiseError_recorded e h, fun h =>
    ⟨raiseError_first .illegalCmd h, raiseError_first .busy h, raiseError_first .range h,
      raiseError_first .border h, raiseError_first .badValue h⟩⟩

/-! ## The transaction words behind an instruction -/

theorem decode_of_write (h : rwField w = true) : decode w = decodeWrite (regField w) (dataField w) :=
  if_pos h

theorem rwField_encode_decode (w : Transaction) : rwField (encode (decode w)) = rwField w := by
  cases h : rwField w
  · rw [decode_of_read h]
    generalize regField w = reg
    revert reg; decide
  · rw [encode_decode_of_write h, h]

/-- Only one word decodes to a given write. -/
theorem eq_encode_of_decode (h : decode w = i) (hw : rwField (encode i) = true) : w = encode i := by
  subst h
  exact (encode_decode_of_write (by rwa [rwField_encode_decode] at hw)).symm

theorem eq_writeWord_of_decode_wrCellData (h : decode w = .wrCellData v) : w = writeWord 4#3 v :=
  eq_encode_of_decode h (by simp [encode, writeWord])

/-- A command word with a reserved bit set is illegal (R108). -/
theorem illegalWord_of_reserved (h : reservedField v ≠ 0#12) : illegalWord v = true := by
  by_contra hv
  have hlow : v.toNat / 16 = 0 := by
    simp only [illegalWord, Bool.or_eq_true, bne_iff_ne, ne_eq, not_or, not_not] at hv
    exact hv.1
  refine h (BitVec.eq_of_toNat_eq ?_)
  simp only [reservedField, BitVec.extractLsb'_toNat, Nat.shiftRight_eq_div_pow, BitVec.toNat_ofNat]
  omega

/-- The word of an illegal instruction is a write of an illegal word to CMD (R107, R108). -/
theorem encode_isIllegal (h : IsIllegal i) (hwf : i.wellFormed = true) :
    rwField (encode i) = true ∧ regField (encode i) = 0#3 ∧
      illegalWord (dataField (encode i)) = true := by
  rcases h with rfl | ⟨a, rfl⟩ | ⟨a, rfl⟩ | ⟨v, rfl⟩
  · decide
  · revert a; decide
  · revert a; decide
  · have hres : reservedField v ≠ 0#12 := by simpa [Instr.wellFormed] using hwf
    simp [encode, writeWord, illegalWord_of_reserved hres]

theorem isIllegal_decode_iff :
    IsIllegal (decode w) ↔
      rwField w = true ∧ regField w = 0#3 ∧ illegalWord (dataField w) = true := by
  constructor
  · intro h
    obtain ⟨hrw, hword⟩ := encode_isIllegal h (decode_wellFormed w)
    have hw : w = encode (decode w) := eq_encode_of_decode rfl hrw
    rw [hw]
    exact ⟨hrw, hword⟩
  · rintro ⟨hrw, hreg, hill⟩
    rw [decode_of_write hrw, hreg]
    exact decodeCommand_isIllegal hill

/-- The command words that BUSY excludes (R302). -/
theorem gated_decodeCommand (h : v.toNat ∈ [1, 2, 3, 4, 5, 7]) :
    ∃ act, Gated (decodeCommand v) act := by
  obtain ⟨n, hn, rfl⟩ : ∃ n ∈ [1, 2, 3, 4, 5, 7], v = BitVec.ofNat 16 n :=
    ⟨v.toNat, h, BitVec.eq_of_toNat_eq (by simp)⟩
  simp only [List.mem_cons, List.not_mem_nil, or_false] at hn
  rcases hn with rfl | rfl | rfl | rfl | rfl | rfl
  · exact ⟨_, .init⟩
  · exact ⟨_, .clear⟩
  · exact ⟨_, .evolve⟩
  · exact ⟨_, .render⟩
  · exact ⟨_, .run⟩
  · exact ⟨_, .next⟩

/-- The word of a transaction behind the BUSY gate is one of those R302 lists. -/
theorem Gated.needsIdle_encode {act : State → State} (h : Gated i act) :
    rwField (encode i) = true ∧ needsIdle (encode i) = true := by
  cases h with
  | wrCellAddr v => simp [encode, writeWord, needsIdle]
  | wrCellData v => simp [encode, writeWord, needsIdle]
  | wrGenLimit v => simp [encode, writeWord, needsIdle]
  | _ => decide

theorem needsIdle_iff_gated : needsIdle w = true ↔ ∃ act, Gated (decode w) act := by
  constructor
  · intro h
    simp only [needsIdle, Bool.and_eq_true, Bool.or_eq_true, beq_iff_eq, decide_eq_true_eq] at h
    obtain ⟨hrw, ((⟨hreg, hop⟩ | hreg) | hreg) | hreg⟩ := h <;> rw [decode_of_write hrw, hreg]
    · exact gated_decodeCommand hop
    · exact ⟨_, .wrCellAddr _⟩
    · exact ⟨_, .wrCellData _⟩
    · exact ⟨_, .wrGenLimit _⟩
  · rintro ⟨act, h⟩
    obtain ⟨hrw, hidle⟩ := h.needsIdle_encode
    rw [eq_encode_of_decode rfl hrw]
    exact hidle

theorem Gated.not_isIllegal {act : State → State} (h : Gated i act) : ¬ IsIllegal i := by
  cases h <;> simp [IsIllegal]

/-! ## The error a transaction raises -/

/-- The condition of each error (R302), each with the conditions of the errors before it excluded
(R304). -/
inductive Raises (s : State) : Instr → Error → Prop where
  | illegalCmd {i : Instr} (h : IsIllegal i) : Raises s i .illegalCmd
  | busy {i : Instr} {act : State → State} (h : Gated i act) (hb : s.busy = true) : Raises s i .busy
  | range {v : Word} (hb : s.busy = false) (hr : N ≤ s.cellAddr.toNat) :
      Raises s (.wrCellData v) .range
  | border {v : Word} (hb : s.busy = false) (hr : s.cellAddr.toNat < N)
      (hbord : Machine.border s.cellAddr.toNat = true) : Raises s (.wrCellData v) .border
  | badValue {v : Word} (hb : s.busy = false) (hr : s.cellAddr.toNat < N)
      (hbord : Machine.border s.cellAddr.toNat = false) (hv : ¬ (v = 0x0000#16 ∨ v = 0x00FF#16)) :
      Raises s (.wrCellData v) .badValue

theorem exec_of_raises (h : Raises s i e) : exec i s = .next (Rejected e s) := by
  cases h with
  | illegalCmd h => exact exec_isIllegal h s
  | busy h hb => exact exec_gated_rejected h hb
  | range hb hr => rw [exec_gated_idle (.wrCellData _) hb, writeCellData_of_range _ hr]
  | border hb hr hbord => rw [exec_gated_idle (.wrCellData _) hb, writeCellData_of_border _ hr hbord]
  | badValue hb hr hbord hv =>
    rw [exec_gated_idle (.wrCellData _) hb, writeCellData_of_interior _ hr hbord, if_neg hv]

theorem firstError_of_gated {act : State → State} (h : Gated (decode w) act) (hb : s.busy = true) :
    firstError w s = some .busy := by
  rw [firstError, if_neg (mt isIllegal_decode_iff.2 h.not_isIllegal),
    if_pos ⟨needsIdle_iff_gated.2 ⟨_, h⟩, hb⟩]

/-- The checks of a CELL_DATA write behind the BUSY check (R281). -/
theorem firstError_of_wrCellData (h : decode w = .wrCellData v) (hb : s.busy = false) :
    firstError w s =
      if N ≤ s.cellAddr.toNat then some .range
      else if border s.cellAddr.toNat = true then some .border
      else if v ≠ 0x0000#16 ∧ v ≠ 0x00FF#16 then some .badValue else none := by
  obtain rfl := eq_writeWord_of_decode_wrCellData h
  simp [firstError, writeWord, hb]

theorem firstError_of_raises (h : Raises s (decode w) e) : firstError w s = some e := by
  generalize hi : decode w = i at h
  cases h with
  | illegalCmd h => exact if_pos (isIllegal_decode_iff.1 (hi ▸ h))
  | busy h hb => exact firstError_of_gated (hi ▸ h) hb
  | range hb hr => rw [firstError_of_wrCellData hi hb, if_pos hr]
  | border hb hr hbord =>
    rw [firstError_of_wrCellData hi hb, if_neg (Nat.not_le.2 hr), if_pos hbord]
  | badValue hb hr hbord hv =>
    rw [firstError_of_wrCellData hi hb, if_neg (Nat.not_le.2 hr), if_neg (by simp [hbord]),
      if_pos (not_or.1 hv)]

theorem raises_wrCellData_of_firstError (h : firstError w s = some e) (hd : decode w = .wrCellData v)
    (hb : s.busy = false) : Raises s (.wrCellData v) e := by
  rw [firstError_of_wrCellData hd hb] at h
  split_ifs at h with hr hbord hv <;> obtain rfl := Option.some.inj h
  · exact .range hb hr
  · exact .border hb (Nat.not_le.1 hr) hbord
  · exact .badValue hb (Nat.not_le.1 hr) (by simpa using hbord) (not_or.2 hv)

/-- The branches of `firstError` are the cases of `Raises`; the last three are the checks of a CELL_DATA
write, which has passed the BUSY check there. -/
theorem raises_of_firstError (h : firstError w s = some e) : Raises s (decode w) e := by
  have h' := h
  unfold firstError at h'
  split_ifs at h' with hill hbusy hcell hr hbord hv
  · obtain rfl := Option.some.inj h'
    exact .illegalCmd (isIllegal_decode_iff.2 hill)
  · obtain rfl := Option.some.inj h'
    obtain ⟨act, hg⟩ := needsIdle_iff_gated.1 hbusy.1
    exact .busy hg hbusy.2
  all_goals
    have hd : decode w = .wrCellData (dataField w) := by
      rw [decode_of_write hcell.1, hcell.2]; rfl
    have hidle : needsIdle w = true := needsIdle_iff_gated.2 ⟨_, hd ▸ Gated.wrCellData _⟩
    exact hd ▸ raises_wrCellData_of_firstError h hd (by simpa [hidle] using hbusy)

end Sys2Proof.Machine
end

section
/-! A recorded error and the rest of the block (60_exceptions.md): what a transaction does to the error
(R304), what clears it (R307), and that it affects nothing else (R306). -/

namespace Sys2Proof.Machine

open Sys2Proof.Config Sys2Proof.Claims

variable {s s' t : State} {i : Instr} {w : Transaction} {rest : List Input}

/-! ## States that differ in the error and in what the host has read -/

/-- `s` without the error and without what the host has read: what `SameButErrors` compares. -/
def withoutErrors (s : State) : State :=
  { s with err := false, errcode := 0#3, hRdata := [], freeReads := 0 }

theorem sameButErrors_iff : SameButErrors s s' ↔ withoutErrors s = withoutErrors s' := Iff.rfl

theorem sameButErrors_inputs (h : SameButErrors s s') : s.inputs = s'.inputs := by
  change (withoutErrors s).inputs = (withoutErrors s').inputs
  rw [sameButErrors_iff.1 h]

theorem sameButErrors_busy (h : SameButErrors s s') : s.busy = s'.busy := by
  change (withoutErrors s).busy = (withoutErrors s').busy
  rw [sameButErrors_iff.1 h]

/-- The second of two such states is the first beside the second's error and answers. -/
theorem eq_withHostSide_of_sameButErrors (h : SameButErrors s s') : s' = withHostSide s s' := by
  change withHostSide (withoutErrors s') s' = withHostSide (withoutErrors s) s'
  rw [sameButErrors_iff.1 h]

theorem sameButErrors_withHostSide (h : s.inputs = s'.inputs) : SameButErrors s (withHostSide s s') := by
  rw [sameButErrors_iff, withoutErrors, withoutErrors, withHostSide, h]

/-- A value that the error and what the host has read do not enter. -/
def Blind (view : State → Word) : Prop := ∀ s, view (withoutErrors s) = view s

theorem Blind.eq {view : State → Word} (hv : Blind view) (h : SameButErrors s s') : view s = view s' := by
  rw [← hv s, ← hv s', sameButErrors_iff.1 h]

/-- STATUS is the same but for bits 3 and 6:4 (10_state.md R39). -/
theorem statusWord_and_mask (s : State) :
    statusWord s &&& 0xFF87#16 = statusWord (withoutErrors s) := by
  have hmask : 0xFF87#16 = 0x1FF#9 ++ 0#3 ++ 0#1 ++ 1#1 ++ 1#1 ++ 1#1 := by decide
  have hbit (b : Bool) : BitVec.ofBool b &&& 1#1 = BitVec.ofBool b := by cases b <;> rfl
  rw [hmask, statusWord]
  rw [BitVec.and_append, BitVec.and_append, BitVec.and_append, BitVec.and_append, BitVec.and_append,
    hbit, hbit, hbit, BitVec.and_zero, BitVec.and_zero]
  rfl

/-! ## Updates that answer nothing -/

/-- An update that answers nothing to the host, and whose effect apart from the error the error does not
enter. -/
structure Silent (f : State → State) : Prop where
  hRdata : ∀ s, (f s).hRdata = s.hRdata
  blind : ∀ s, withoutErrors (f (withoutErrors s)) = withoutErrors (f s)

theorem Silent.sameButErrors {f : State → State} (hf : Silent f) (h : SameButErrors s s') :
    SameButErrors (f s) (f s') := by
  rw [sameButErrors_iff, ← hf.blind s, ← hf.blind s', sameButErrors_iff.1 h]

theorem Silent.comp {f g : State → State} (hf : Silent f) (hg : Silent g) : Silent (fun s => f (g s)) where
  hRdata s := (hf.hRdata _).trans (hg.hRdata s)
  blind s := hf.sameButErrors (hg.blind s)

theorem silent_id : Silent (fun s => s) := ⟨fun _ => rfl, fun _ => rfl⟩

theorem silent_setInputs (rest : List Input) : Silent (setInputs rest) := ⟨fun _ => rfl, fun _ => rfl⟩

theorem withoutErrors_raiseError (e : Error) (s : State) :
    withoutErrors (raiseError e s) = withoutErrors s := by
  rw [raiseError_eq]; rfl

theorem silent_raiseError (e : Error) : Silent (raiseError e) where
  hRdata s := by rw [raiseError_eq]
  blind s := by rw [withoutErrors_raiseError, withoutErrors_raiseError]; rfl

theorem silent_clearError : Silent clearError := ⟨fun _ => rfl, fun _ => rfl⟩

theorem silent_requestStop : Silent requestStop where
  hRdata s := by rw [requestStop_eq]
  blind s := by rw [requestStop_eq, requestStop_eq]; rfl

theorem silent_writeCellData (v : Word) : Silent (writeCellData v) where
  hRdata s := by
    rcases writeCellData_cases v s with ⟨_, e⟩ | ⟨_, _, e⟩ | ⟨_, _, _, e⟩ | ⟨_, _, _, e⟩ <;>
      simp only [e, raiseError_eq, setCell_hRdata]
  blind s := by
    have haddr : (withoutErrors s).cellAddr = s.cellAddr := rfl
    unfold writeCellData
    rw [haddr]
    split_ifs
    · exact (silent_raiseError .range).blind s
    · exact (silent_raiseError .border).blind s
    · exact (silent_raiseError .badValue).blind s
    · rfl

theorem Gated.silent_act {act : State → State} (h : Gated i act) : Silent act := by
  cases h with
  | wrCellData v => exact silent_writeCellData v
  | _ => exact ⟨fun _ => rfl, fun _ => rfl⟩

theorem Silent.unlessBusy {act : State → State} (h : Silent act) : Silent (unlessBusy act) where
  hRdata s := by
    rcases unlessBusy_cases act s with ⟨_, e⟩ | ⟨_, e⟩ <;> rw [e]
    · exact (silent_raiseError .busy).hRdata s
    · exact h.hRdata s
  blind s := by
    rcases unlessBusy_cases act s with ⟨hb, e⟩ | ⟨hb, e⟩ <;> rw [e]
    · rw [unlessBusy_busy (s := withoutErrors s) hb]
      exact (silent_raiseError .busy).blind s
    · rw [unlessBusy_idle (s := withoutErrors s) hb]
      exact h.blind s

theorem silent_interrupt (k : Nat) : Silent (interrupt k) where
  hRdata s := by rw [interrupt, dispWrites_hRdata]
  blind s := by rw [interrupt, interrupt, dispWrites_eq, dispWrites_eq]; rfl

theorem silent_resetBlock : Silent resetBlock := ⟨fun _ => rfl, fun _ => rfl⟩

theorem silent_hardReset (k : Nat) : Silent (hardReset k) :=
  silent_resetBlock.comp (silent_interrupt k)

/-- The return of power forgets the display (R344). -/
theorem silent_powerUp (k : Nat) : Silent (powerUp k) where
  hRdata s := (silent_hardReset k).hRdata s
  blind s :=
    congrArg (fun u : State => { u with display := [], powerUps := s.powerUps + 1 })
      ((silent_hardReset k).blind s)

/-! ## The transactions by kind -/

/-- What each transaction is, in every state alike. -/
inductive TransactionKind : Instr → Prop where
  | illegal {i : Instr} (h : IsIllegal i) : TransactionKind i
  | gated {i : Instr} {act : State → State} (h : Gated i act) : TransactionKind i
  | clrerr : TransactionKind .clrerr
  | stop : TransactionKind .stop
  | ignored {i : Instr} (h : ∀ s, exec i s = .next s) : TransactionKind i
  | status : TransactionKind .rdStatus
  | stable {i : Instr} {view : State → Word} (hv : Blind view)
      (h : ∀ s, exec i s = .next (answer (view s) s)) : TransactionKind i
  | unstable {i : Instr} {view : State → Word}
      (hi : i = .rdPrngState ∨ i = .rdCellData ∨ i = .rdCountData) (hv : Blind view)
      (h : ∀ s, exec i s = .next (answerUnstable (view s) s)) : TransactionKind i

theorem transactionKind (i : Instr) : TransactionKind i := by
  cases i with
  | rdCmd => exact .stable (view := viewCmd) (fun _ => rfl) fun _ => rfl
  | rdStatus => exact .status
  | rdPrngState => exact .unstable (view := viewPrngState) (.inl rfl) (fun _ => rfl) fun _ => rfl
  | rdCellAddr => exact .stable (view := State.cellAddr) (fun _ => rfl) fun _ => rfl
  | rdCellData => exact .unstable (view := viewCellData) (.inr (.inl rfl)) (fun _ => rfl) fun _ => rfl
  | rdCountData => exact .unstable (view := viewCountData) (.inr (.inr rfl)) (fun _ => rfl) fun _ => rfl
  | rdGenCount => exact .stable (view := State.genCount) (fun _ => rfl) fun _ => rfl
  | rdGenLimit => exact .stable (view := State.genLimit) (fun _ => rfl) fun _ => rfl
  | stop => exact .stop
  | clrerr => exact .clrerr
  | init => exact .gated .init
  | clear => exact .gated .clear
  | evolve => exact .gated .evolve
  | render => exact .gated .render
  | run => exact .gated .run
  | next => exact .gated .next
  | wrCellAddr v => exact .gated (.wrCellAddr v)
  | wrCellData v => exact .gated (.wrCellData v)
  | wrGenLimit v => exact .gated (.wrGenLimit v)
  | nop | wrStatus _ | wrPrngState _ | wrCountData _ | wrGenCount _ => exact .ignored fun _ => rfl
  | illegalOp9 => exact .illegal (.inl rfl)
  | illegalOpAB a => exact .illegal (.inr (.inl ⟨a, rfl⟩))
  | illegalOpCF a => exact .illegal (.inr (.inr (.inl ⟨a, rfl⟩)))
  | illegalReserved v => exact .illegal (.inr (.inr (.inr ⟨v, rfl⟩)))

/-! ## The error after a transaction -/

/-- `t` records the same error as `s`, or none as `s`. -/
def KeepsError (s t : State) : Prop := t.err = s.err ∧ t.errcode = s.errcode

theorem writeCellData_error (v : Word) (hb : s.busy = false) :
    (∃ e, Raises s (.wrCellData v) e) ∨ KeepsError s (writeCellData v s) := by
  rcases writeCellData_cases v s with
    ⟨hr, _⟩ | ⟨hr, hbord, _⟩ | ⟨hr, hbord, hv, _⟩ | ⟨_, _, _, e⟩
  · exact .inl ⟨_, .range hb hr⟩
  · exact .inl ⟨_, .border hb hr hbord⟩
  · exact .inl ⟨_, .badValue hb hr hbord (mt legalCellValue_iff.2 (by simp [hv]))⟩
  · rw [e]
    exact .inr ⟨rfl, rfl⟩

theorem Gated.act_error {act : State → State} (h : Gated i act) (hb : s.busy = false) :
    (∃ e, Raises s i e) ∨ KeepsError s (act s) := by
  cases h with
  | wrCellData v => exact writeCellData_error v hb
  | _ => exact .inr ⟨rfl, rfl⟩

theorem answerUnstable_keepsError (v : Word) (s : State) : KeepsError s (answerUnstable v s) := by
  rcases answerUnstable_cases v s with ⟨_, e⟩ | ⟨_, e⟩ <;> rw [e] <;> exact ⟨rfl, rfl⟩

/-- A transaction raises an error, or is CLRERR, or keeps ERR and ERRCODE. -/
theorem exec_error_cases (h : exec i s = .next t) :
    (∃ e, Raises s i e) ∨ i = .clrerr ∨ KeepsError s t := by
  cases transactionKind i with
  | illegal hi => exact .inl ⟨_, .illegalCmd hi⟩
  | gated hg =>
    cases hb : s.busy with
    | true => exact .inl ⟨_, .busy hg hb⟩
    | false =>
      obtain rfl := Host.Outcome.next.inj ((exec_gated_idle hg hb).symm.trans h)
      exact (hg.act_error hb).imp_right .inr
  | clrerr => exact .inr (.inl rfl)
  | stop =>
    obtain rfl := Host.Outcome.next.inj h
    rw [requestStop_eq]
    exact .inr (.inr ⟨rfl, rfl⟩)
  | ignored hi =>
    obtain rfl := Host.Outcome.next.inj ((hi s).symm.trans h)
    exact .inr (.inr ⟨rfl, rfl⟩)
  | status =>
    obtain rfl := Host.Outcome.next.inj h
    exact .inr (.inr ⟨rfl, rfl⟩)
  | stable _ hi =>
    obtain rfl := Host.Outcome.next.inj ((hi s).symm.trans h)
    exact .inr (.inr ⟨rfl, rfl⟩)
  | unstable _ _ hi =>
    obtain rfl := Host.Outcome.next.inj ((hi s).symm.trans h)
    exact .inr (.inr (answerUnstable_keepsError _ s))

theorem exec_clrerr_error (h : exec .clrerr s = .next t) : t.err = false ∧ t.errcode = 0#3 := by
  obtain rfl := Host.Outcome.next.inj h
  exact ⟨rfl, rfl⟩

/-- Settles O49: `firstError` is the error that `Raises` names, and a transaction that raises none is
CLRERR or keeps the error. -/
theorem firstApplicableErrorIsRaised : Obligations.FirstApplicableErrorIsRaised := by
  refine fun s w => ⟨fun e he => exec_of_raises (raises_of_firstError he), fun hnone => ?_⟩
  obtain ⟨u, hu⟩ := exec_next (decode w) s
  refine ⟨u, hu, ?_⟩
  split_ifs with hc
  · rw [hc] at hu
    exact exec_clrerr_error hu
  · rcases exec_error_cases hu with ⟨e, he⟩ | hc' | hkeep
    · rw [firstError_of_raises he] at hnone
      cases hnone
    · exact absurd hc' hc
    · exact hkeep

/-! ## What clears a recorded error -/

/-- A transaction other than CLRERR leaves a recorded error as it is. -/
theorem exec_recorded (h : exec i s = .next t) (herr : s.err = true) :
    (i = .clrerr ∧ t.err = false ∧ t.errcode = 0#3) ∨ KeepsError s t := by
  rcases exec_error_cases h with ⟨e, he⟩ | rfl | hkeep
  · obtain rfl := Host.Outcome.next.inj ((exec_of_raises he).symm.trans h)
    exact .inr ⟨herr.symm, if_neg (by simp [herr])⟩
  · exact .inl ⟨rfl, exec_clrerr_error h⟩
  · exact .inr hkeep

/-- The engine writes nothing of the host's side: a step beside the state's own is the step itself. -/
theorem engineStep_eq_withHostSide (h : engineStep s = .next t) : t = withHostSide t s :=
  Host.Outcome.next.inj (h.symm.trans (engineStep_withHostSide s h))

theorem engineStep_keepsError (h : engineStep s = .next t) : KeepsError s t := by
  rw [engineStep_eq_withHostSide h]
  exact ⟨rfl, rfl⟩

theorem engineStep_hRdata (h : engineStep s = .next t) : t.hRdata = s.hRdata := by
  rw [engineStep_eq_withHostSide h]; rfl

theorem engineStep_inputs (h : engineStep s = .next t) : t.inputs = s.inputs := by
  rw [engineStep_eq_withHostSide h]; rfl

/-- Settles O50: the rule on the error of the agent that moves. -/
theorem onlyClrerrAndResetClearTheError : Obligations.OnlyClrerrAndResetClearTheError := by
  intro s t h herr
  have keep (hk : KeepsError s t) : t.err = true ∧ t.errcode = s.errcode := ⟨hk.1.trans herr, hk.2⟩
  rcases step_cases s with
    ⟨_, e⟩ | ⟨rest, _, e⟩ | ⟨w, rest, hin, e⟩ | ⟨k, p, rest, hin, e⟩ | ⟨k, rest, hin, e⟩
  · exact .inl (keep (engineStep_keepsError (e.symm.trans h)))
  · exact .inl (keep (engineStep_keepsError (s := setInputs rest s) (e.symm.trans h)))
  · rcases exec_recorded (e.symm.trans h) herr with ⟨hc, hclear⟩ | hkeep
    · exact .inr (.inl ⟨⟨w, rest, hin, hc⟩, hclear⟩)
    · exact .inl (keep hkeep)
  · obtain rfl := Host.Outcome.next.inj (e.symm.trans h)
    exact .inr (.inr ⟨.inl ⟨k, p, rest, hin⟩, rfl, rfl⟩)
  · obtain rfl := Host.Outcome.next.inj (e.symm.trans h)
    exact .inr (.inr ⟨.inr ⟨k, rest, hin⟩, rfl, rfl⟩)

/-! ## The error does not affect the block -/

/-- The steps from `s` to `t` and from `s'` to `t'` are alike: they end in the same state but for errors,
and the host reads the same in both but for STATUS and unspecified values (R306). -/
def StepsAlike (s s' t t' : State) : Prop :=
  SameButErrors t t' ∧ ∃ new new', t.hRdata = new ++ s.hRdata ∧ t'.hRdata = new' ++ s'.hRdata ∧
    new.length = new'.length ∧
    (¬ ReadsUnstably s →
      new.map (fun v => v &&& 0xFF87#16) = new'.map (fun v => v &&& 0xFF87#16) ∧
      (¬ HostIssues .rdStatus s → new = new'))

theorem stepsAlike_of_no_answer {t' : State} (h : SameButErrors t t') (ht : t.hRdata = s.hRdata)
    (ht' : t'.hRdata = s'.hRdata) : StepsAlike s s' t t' :=
  ⟨h, [], [], ht, ht', rfl, fun _ => ⟨rfl, fun _ => rfl⟩⟩

theorem stepsAlike_of_answer {t' : State} {v v' : Word} (h : SameButErrors t t')
    (ht : t.hRdata = v :: s.hRdata) (ht' : t'.hRdata = v' :: s'.hRdata)
    (hv : ¬ ReadsUnstably s → v &&& 0xFF87#16 = v' &&& 0xFF87#16 ∧ (¬ HostIssues .rdStatus s → v = v')) :
    StepsAlike s s' t t' :=
  ⟨h, [v], [v'], ht, ht', rfl, fun hu => by simpa using hv hu⟩

theorem Silent.stepsAlike {f : State → State} (hf : Silent f) (h : SameButErrors s s') :
    StepsAlike s s' (f s) (f s') :=
  stepsAlike_of_no_answer (hf.sameButErrors h) (hf.hRdata s) (hf.hRdata s')

theorem sameButErrors_answer (h : SameButErrors s s') (v v' : Word) :
    SameButErrors (answer v s) (answer v' s') := h

theorem answerUnstable_busy (v : Word) (hb : s.busy = true) :
    answerUnstable v s =
      { s with hRdata := freeRead s.freeReads :: s.hRdata, freeReads := s.freeReads + 1 } :=
  if_pos hb

theorem answerUnstable_idle (v : Word) (hb : s.busy = false) : answerUnstable v s = answer v s :=
  if_neg (by simp [hb])

/-- An engine step beside another error: the same step. -/
theorem engineStep_alike {u : State} (h : SameButErrors s s') (hu : engineStep s = .next u) :
    ∃ u', engineStep s' = .next u' ∧ SameButErrors u u' ∧ u.hRdata = s.hRdata ∧
      u'.hRdata = s'.hRdata := by
  have hin : u.inputs = s'.inputs := (engineStep_inputs hu).trans (sameButErrors_inputs h)
  refine ⟨withHostSide u s', ?_, sameButErrors_withHostSide hin, engineStep_hRdata hu, rfl⟩
  have hstep := engineStep_withHostSide s' hu
  rwa [← eq_withHostSide_of_sameButErrors h] at hstep

/-! In the lemmas on reads the host's transaction has been taken from the inputs, as `step` does. -/

/-- A read of STATUS shows the error in bits 3 and 6:4 only. -/
theorem answer_statusWord_alike (h : SameButErrors s s') (hi : HostIssues .rdStatus s) :
    StepsAlike s s' (answer (statusWord (setInputs rest s)) (setInputs rest s))
      (answer (statusWord (setInputs rest s')) (setInputs rest s')) := by
  have hset := (silent_setInputs rest).sameButErrors h
  refine stepsAlike_of_answer (sameButErrors_answer hset _ _) rfl rfl fun _ =>
    ⟨?_, fun hno => absurd hi hno⟩
  rw [statusWord_and_mask, statusWord_and_mask, sameButErrors_iff.1 hset]

theorem answer_alike {view : State → Word} (hv : Blind view) (h : SameButErrors s s') :
    StepsAlike s s' (answer (view (setInputs rest s)) (setInputs rest s))
      (answer (view (setInputs rest s')) (setInputs rest s')) := by
  have hset := (silent_setInputs rest).sameButErrors h
  have hread := hv.eq hset
  exact stepsAlike_of_answer (sameButErrors_answer hset _ _) rfl rfl fun _ =>
    ⟨by rw [hread], fun _ => hread⟩

/-- An unstable read is exact while idle, and unspecified while BUSY (45_host_access.md R279). -/
theorem answerUnstable_alike {view : State → Word} (hv : Blind view) (h : SameButErrors s s')
    (hu : s.busy = true → ReadsUnstably s) :
    StepsAlike s s' (answerUnstable (view (setInputs rest s)) (setInputs rest s))
      (answerUnstable (view (setInputs rest s')) (setInputs rest s')) := by
  have hset := (silent_setInputs rest).sameButErrors h
  have hbusy := sameButErrors_busy h
  cases hb : s.busy with
  | true =>
    rw [answerUnstable_busy _ (s := setInputs rest s) hb,
      answerUnstable_busy _ (s := setInputs rest s') (hbusy ▸ hb)]
    exact stepsAlike_of_answer hset rfl rfl fun hno => absurd (hu hb) hno
  | false =>
    rw [answerUnstable_idle _ (s := setInputs rest s) hb,
      answerUnstable_idle _ (s := setInputs rest s') (hbusy ▸ hb)]
    exact answer_alike hv h

/-- A transaction whose meaning is `f` is performed alike beside another error, if `f` is alike. -/
theorem exec_alike_of_meaning {f : State → State} (hexec : ∀ u, exec i u = .next (f u))
    (hf : StepsAlike s s' (f (setInputs rest s)) (f (setInputs rest s')))
    (ht : exec i (setInputs rest s) = .next t) :
    ∃ t', exec i (setInputs rest s') = .next t' ∧ StepsAlike s s' t t' := by
  obtain rfl := Host.Outcome.next.inj ((hexec _).symm.trans ht)
  exact ⟨_, hexec _, hf⟩

/-- A transaction presented beside another error is performed alike. -/
theorem exec_alike (h : SameButErrors s s') (hi : HostIssues i s)
    (ht : exec i (setInputs rest s) = .next t) :
    ∃ t', exec i (setInputs rest s') = .next t' ∧ StepsAlike s s' t t' := by
  have silent {f : State → State} (hf : Silent f) :
      StepsAlike s s' (f (setInputs rest s)) (f (setInputs rest s')) :=
    (hf.comp (silent_setInputs rest)).stepsAlike h
  cases transactionKind i with
  | illegal hill =>
    exact exec_alike_of_meaning (exec_illegal hill) (silent (silent_raiseError .illegalCmd)) ht
  | gated hg => exact exec_alike_of_meaning (exec_gated hg) (silent hg.silent_act.unlessBusy) ht
  | clrerr => exact exec_alike_of_meaning (fun _ => rfl) (silent silent_clearError) ht
  | stop => exact exec_alike_of_meaning (fun _ => rfl) (silent silent_requestStop) ht
  | ignored hexec => exact exec_alike_of_meaning hexec (silent silent_id) ht
  | status => exact exec_alike_of_meaning (fun _ => rfl) (answer_statusWord_alike h hi) ht
  | stable hv hexec => exact exec_alike_of_meaning hexec (answer_alike hv h) ht
  | unstable hu hv hexec =>
    have hun (hb : s.busy = true) : ReadsUnstably s :=
      ⟨hb, by rcases hu with rfl | rfl | rfl <;> simp [hi]⟩
    exact exec_alike_of_meaning hexec (answerUnstable_alike hv h hun) ht

/-- Whichever agent moves, the step beside another error is alike. -/
theorem step_alike (h : SameButErrors s s') (ht : step s = .next t) :
    ∃ t', step s' = .next t' ∧ StepsAlike s s' t t' := by
  have hinputs := sameButErrors_inputs h
  rcases step_cases s with
    ⟨hin, e⟩ | ⟨rest, hin, e⟩ | ⟨w, rest, hin, e⟩ | ⟨k, p, rest, hin, e⟩ | ⟨k, rest, hin, e⟩ <;>
    rw [e] at ht <;> rw [hin] at hinputs
  · obtain ⟨t', ht', hsame, hr, hr'⟩ := engineStep_alike h ht
    exact ⟨t', (step_nil hinputs.symm).trans ht', stepsAlike_of_no_answer hsame hr hr'⟩
  · obtain ⟨t', ht', hsame, hr, hr'⟩ :=
      engineStep_alike ((silent_setInputs rest).sameButErrors h) ht
    exact ⟨t', (step_idle hinputs.symm).trans ht', stepsAlike_of_no_answer hsame hr hr'⟩
  · obtain ⟨t', ht', halike⟩ := exec_alike h ⟨w, rest, hin, rfl⟩ ht
    exact ⟨t', (step_host hinputs.symm).trans ht', halike⟩
  · obtain rfl := Host.Outcome.next.inj ht
    exact ⟨_, step_reset hinputs.symm, ((silent_hardReset k).comp (silent_setInputs rest)).stepsAlike h⟩
  · obtain rfl := Host.Outcome.next.inj ht
    exact ⟨_, step_powerCycle hinputs.symm,
      ((silent_powerUp k).comp (silent_setInputs rest)).stepsAlike h⟩

/-- Settles O51: `step_alike`, written out. -/
theorem recordedErrorDoesNotAffectTheBlock : Obligations.RecordedErrorDoesNotAffectTheBlock := by
  intro s s' t h ht
  obtain ⟨t', ht', hsame, new, new', hreads⟩ := step_alike h ht
  exact ⟨t', new, new', ht', hsame, hreads⟩

end Sys2Proof.Machine
end

section
/-! Reset (70_reset_and_hazards.md): the reset values (R341), and the display writes that an aborted operation
leaves (R342). -/

namespace Sys2Proof.Machine

open Sys2Proof.Config Sys2Proof.Claims

variable {s : State} {k : Nat}

/-! ## The display writes an interrupted operation leaves -/

theorem pendingWrites_rendering (h : s.op = .render ∨ s.op = .run) :
    pendingWrites s = renderWrites s.G := by
  unfold pendingWrites
  rcases h with h | h <;> rw [h]

theorem pendingWrites_not_rendering (h : s.op ≠ .render) (h' : s.op ≠ .run) : pendingWrites s = [] := by
  unfold pendingWrites
  cases ho : s.op with
  | render => exact absurd ho h
  | run => exact absurd ho h'
  | none | init | clear | evolve => rfl

theorem take_renderWrites (g : Grid) (hk : k ≤ 4000) :
    (renderWrites g).take k = (List.range k).map (renderWrite g) := by
  rw [renderWrites_eq_map_renderWrite, ← List.map_take, List.take_range, Nat.min_eq_left hk]

/-- A RENDER or RUN is cut short after its first `k` display writes. -/
theorem interrupt_rendering (hb : s.busy = true) (ho : s.op = .render ∨ s.op = .run) (hk : k ≤ 4000) :
    interrupt k s = dispWrites ((List.range k).map (renderWrite s.G)) s := by
  rw [interrupt, if_pos hb, pendingWrites_rendering ho, take_renderWrites s.G hk]

theorem interrupt_not_rendering (h : s.op ≠ .render) (h' : s.op ≠ .run) : interrupt k s = s := by
  rw [interrupt, pendingWrites_not_rendering h h', List.take_nil, ite_self]; rfl

theorem interrupt_idle (hb : s.busy = false) : interrupt k s = s := by
  rw [interrupt, if_neg (by simp [hb])]; rfl

@[simp] theorem interrupt_hRdata : (interrupt k s).hRdata = s.hRdata := dispWrites_hRdata s _

@[simp] theorem interrupt_inputs : (interrupt k s).inputs = s.inputs := dispWrites_inputs s _

/-- The display byte after one more display write. -/
theorem displayByte_dispWrite (s : State) (w : DispW) (off : Nat) :
    displayByte (dispWrite s w) off = if off = w.off.toNat then w.data else displayByte s off := by
  simp only [displayByte, dispWrite, Memory.read?_write]
  split <;> rfl

theorem renderWrite_off_toNat (g : Grid) (hk : k < 4000) : (renderWrite g k).off.toNat = k :=
  (BitVec.toNat_ofNat k 12).trans (Nat.mod_eq_of_lt (by omega))

/-- The display after the first `k` writes of a RENDER of grid `g`: each offset below `k` holds its own
write, because the `k`-th write goes to offset `k`. -/
theorem displayByte_renderPrefix (g : Grid) (s : State) (hk : k ≤ 4000) (off : Nat) :
    displayByte (dispWrites ((List.range k).map (renderWrite g)) s) off =
      if off < k then (renderWrite g off).data else displayByte s off := by
  induction k with
  | zero => rfl
  | succ k ih =>
    have last : dispWrites ((List.range (k + 1)).map (renderWrite g)) s =
        dispWrite (dispWrites ((List.range k).map (renderWrite g)) s) (renderWrite g k) := by
      simp only [dispWrites, List.range_succ, List.map_append, List.foldl_append, List.map_cons,
        List.map_nil, List.foldl_cons, List.foldl_nil]
    rw [last, displayByte_dispWrite, renderWrite_off_toNat g hk, ih (by omega)]
    rcases Nat.lt_trichotomy off k with h | rfl | h
    · rw [if_neg (by omega), if_pos h, if_pos (by omega)]
    · rw [if_pos rfl, if_pos (by omega)]
    · rw [if_neg (by omega), if_neg (by omega), if_neg (by omega)]

/-! ## Reset -/

theorem blockIsReset_hardReset (k : Nat) (s : State) : BlockIsReset (hardReset k s) := rfl

@[simp] theorem hardReset_display : (hardReset k s).display = (interrupt k s).display := rfl

@[simp] theorem hardReset_dispTrace : (hardReset k s).dispTrace = (interrupt k s).dispTrace := rfl

theorem displayByte_hardReset (off : Nat) :
    displayByte (hardReset k s) off = displayByte (interrupt k s) off := rfl

/-- A reset during a RENDER or RUN, with a STOP pending or not, keeps the first `k` display writes. -/
theorem hardReset_rendering (hb : s.busy = true) (ho : s.op = .render ∨ s.op = .run) (hk : k ≤ 4000) :
    (hardReset k s).dispTrace = ((List.range k).map (renderWrite s.G)).reverse ++ s.dispTrace ∧
      ∀ off, displayByte (hardReset k s) off =
        if off < k then (renderWrite s.G off).data else displayByte s off := by
  simp only [hardReset_dispTrace, displayByte_hardReset, interrupt_rendering hb ho hk]
  exact ⟨dispWrites_dispTrace s _, displayByte_renderPrefix s.G s hk⟩

/-- A reset that interrupts no display write leaves the display and the record of its writes. -/
theorem hardReset_keeps_display (h : interrupt k s = s) :
    (hardReset k s).display = s.display ∧ (hardReset k s).dispTrace = s.dispTrace := by
  rw [hardReset_display, hardReset_dispTrace, h]
  exact ⟨rfl, rfl⟩

/-- Settles O55: a reset ends in `resetBlock`, whose fields are the reset values, and before that only
issues display writes, none while BUSY = 0. -/
theorem resetGivesTheResetValues : Obligations.ResetGivesTheResetValues := by
  intro s k p rest hin
  exact ⟨_, step_reset hin, resetBlock_S _, fun i _ => ⟨cell_replicate i, count_replicate i⟩,
    resetBlock_cellAddr _, resetBlock_genCount _, resetBlock_genLimit _, resetBlock_busy _,
    resetBlock_running _, resetBlock_stopPend _, resetBlock_err _, resetBlock_errcode _, resetBlock_op _,
    resetBlock_runLeft _, resetBlock_runInf _, interrupt_hRdata, interrupt_inputs,
    fun hb => hardReset_keeps_display (interrupt_idle hb)⟩

/-- Settles O56: the reset keeps the prefix that `interrupt` issues, which is empty unless the operation
renders. -/
theorem resetAbortsTheOperationAndKeepsItsWrites :
    Obligations.ResetAbortsTheOperationAndKeepsItsWrites := by
  intro s k p rest hb hk hin
  refine ⟨_, step_reset hin, blockIsReset_hardReset _ _, fun ho => ?_, fun h h' => ?_⟩
  · exact hardReset_rendering hb (ho.imp_right And.left) hk
  · exact hardReset_keeps_display (interrupt_not_rendering h h')

end Sys2Proof.Machine
end

section
/-! The decoder and the encoder undo each other (30_encoding.md R101, R102, R105 to R111), and a step runs
the presented transaction. -/

namespace Sys2Proof.Machine

/-! ## Decoding an encoded instruction -/

theorem decode_commandWord (op : BitVec 4) :
    decode (commandWord op) = decodeCommand (0#12 ++ op) :=
  decode_writeWord 0#3 (0#12 ++ op)

/-- The illegal opcodes 0xA and 0xB keep their low bit (R107). -/
theorem decodeCommand_illegalOpAB (low : BitVec 1) :
    decodeCommand (0#12 ++ (0b101#3 ++ low)) = .illegalOpAB low := by
  revert low; decide

/-- The illegal opcodes 0xC to 0xF keep their low two bits (R107). -/
theorem decodeCommand_illegalOpCF (low : BitVec 2) :
    decodeCommand (0#12 ++ (0b11#2 ++ low)) = .illegalOpCF low := by
  revert low; decide

/-- A read or a command without operand is one closed word; a write is decoded by REG, and its DATA is the
operand. Only a reserved-bits command needs its well-formedness. -/
theorem decode_encode {i : Instr} (h : i.wellFormed = true) : decode (encode i) = i := by
  cases i with
  | wrCellAddr v => exact decode_writeWord 3#3 v
  | wrCellData v => exact decode_writeWord 4#3 v
  | wrGenLimit v => exact decode_writeWord 7#3 v
  | wrStatus v => exact decode_writeWord 1#3 v
  | wrPrngState v => exact decode_writeWord 2#3 v
  | wrCountData v => exact decode_writeWord 5#3 v
  | wrGenCount v => exact decode_writeWord 6#3 v
  | illegalOpAB low => exact (decode_commandWord _).trans (decodeCommand_illegalOpAB low)
  | illegalOpCF low => exact (decode_commandWord _).trans (decodeCommand_illegalOpCF low)
  | illegalReserved v =>
    have hres : reservedField v ≠ 0#12 := by simpa [Instr.wellFormed] using h
    exact (decode_writeWord 0#3 v).trans (decodeCommand_reserved hres)
  | _ => decide

/-- Settles O2: `decode_encode`. -/
theorem decodeOfEncodeIsIdentity : Obligations.DecodeOfEncodeIsIdentity := fun _ => decode_encode

/-! ## Encoding a decoded word -/

theorem encode_decodeRead (reg : BitVec 3) : encode (decodeRead reg) = readWord reg := by
  revert reg; decide

/-- A read comes back with its DATA field cleared (R102). -/
theorem encode_decode_of_read {t : Transaction} (h : rwField t = false) :
    encode (decode t) = t &&& 0xF0000#20 :=
  calc encode (decode t) = readWord (regField t) := by rw [decode_of_read h, encode_decodeRead]
    _ = transaction (BitVec.ofBool (rwField t)) (regField t) (dataField t) &&& 0xF0000#20 := by
        rw [h]; exact (transaction_and_head 0#1 (regField t) (dataField t)).symm
    _ = t &&& 0xF0000#20 := by rw [transaction_fields]

/-- Settles O3: a write loses no bit, a read its DATA. -/
theorem encodeOfDecodeRestoresTheWord : Obligations.EncodeOfDecodeRestoresTheWord := fun _ =>
  ⟨encode_decode_of_write, encode_decode_of_read⟩

/-- Settles O1: the twelve words are closed. -/
theorem writtenOutWordsDecode : Obligations.WrittenOutWordsDecode := by
  unfold Obligations.WrittenOutWordsDecode; decide

/-! ## The step on a presented word -/

theorem decodeTableWord_of_lt (nbits : Nat) {w : Nat} (h : w < 2 ^ 20) :
    decodeTableWord nbits w = some (decode (BitVec.ofNat 20 w)) := by
  rw [decodeTableWord, decodeNat, if_pos h]

/-- Settles O5: `step_host`, with the presented word decoded. -/
theorem stepRunsThePresentedTransaction : Obligations.StepRunsThePresentedTransaction := by
  refine ⟨fun s t rest i hin hd => ?_, fun s rest i hwf hin => ?_, fun s nbits w hw =>
    ⟨decodeTableWord_of_lt nbits hw, step_host rfl⟩⟩
  · rw [step_host hin, hd]; rfl
  · rw [step_host hin, decode_encode hwf]; rfl

end Sys2Proof.Machine
end

section
/-! The PRNG as a permutation of the words (40_prng.md): the inverse step (R145), zero (R144), the period
from the seed (R146) and the residues drawn in one period (R147). -/

namespace Sys2Proof.Machine

open Sys2Proof.Config

/-! ## The inverse step -/

theorem getLsbD_lfsrPrev_shift (n : Word) {k : Nat} (hk : k < 15) :
    (lfsrPrev n).getLsbD (k + 1) = n.getLsbD k := by
  rw [lfsrPrev, BitVec.getLsbD_append, if_neg (by omega), BitVec.getLsbD_extractLsb']
  simp [hk]

theorem getLsbD_lfsrPrev_low (n : Word) :
    (lfsrPrev n).getLsbD 0 = (n.getLsbD 15 ^^ n.getLsbD 1 ^^ n.getLsbD 2 ^^ n.getLsbD 4) := by
  rw [lfsrPrev, BitVec.getLsbD_append]
  simp

/-- The bit shifted out is the parity of the other taps and the bit shifted in. -/
theorem lfsrPrev_lfsrNext (n : Word) : lfsrPrev (lfsrNext n) = n := by
  apply BitVec.eq_of_getLsbD_eq
  intro k hk
  match k with
  | 0 =>
    rw [getLsbD_lfsrPrev_low, getLsbD_lfsrNext_top, getLsbD_lfsrNext_shift n (by decide),
      getLsbD_lfsrNext_shift n (by decide), getLsbD_lfsrNext_shift n (by decide)]
    simp only [Nat.reduceAdd]
    cases n.getLsbD 2 <;> cases n.getLsbD 3 <;> cases n.getLsbD 5 <;> simp
  | k + 1 =>
    rw [getLsbD_lfsrPrev_shift _ (by omega), getLsbD_lfsrNext_shift n (by omega)]

theorem lfsrNext_lfsrPrev (n : Word) : lfsrNext (lfsrPrev n) = n := by
  apply BitVec.eq_of_getLsbD_eq
  intro k hk
  rcases Nat.lt_or_ge k 15 with h | h
  · rw [getLsbD_lfsrNext_shift _ (by omega), getLsbD_lfsrPrev_shift n h]
  · obtain rfl : k = 15 := by omega
    rw [getLsbD_lfsrNext_top, getLsbD_lfsrPrev_low, getLsbD_lfsrPrev_shift n (k := 1) (by decide),
      getLsbD_lfsrPrev_shift n (k := 2) (by decide), getLsbD_lfsrPrev_shift n (k := 4) (by decide)]
    cases n.getLsbD 1 <;> cases n.getLsbD 2 <;> cases n.getLsbD 4 <;> simp

/-- Settles O13: the two compositions, bit by bit. -/
theorem lfsrPrevInvertsLfsrNext : Obligations.LfsrPrevInvertsLfsrNext := fun n =>
  ⟨lfsrPrev_lfsrNext n, lfsrNext_lfsrPrev n⟩

/-! ## Zero -/

theorem lfsrNext_zero : lfsrNext 0#16 = 0#16 := by decide

theorem lfsrNext_injective : Function.Injective lfsrNext :=
  Function.LeftInverse.injective lfsrPrev_lfsrNext

theorem lfsrNext_bijective : Function.Bijective lfsrNext :=
  ⟨lfsrNext_injective, Function.RightInverse.surjective lfsrNext_lfsrPrev⟩

/-- The PRNG never steps to 0 from elsewhere, because 0 steps to 0. -/
theorem lfsrNext_ne_zero {x : Word} (hx : x ≠ 0#16) : lfsrNext x ≠ 0#16 := fun h =>
  hx (lfsrNext_injective (h.trans lfsrNext_zero.symm))

/-- Settles O14: the fixed point, the inverse and the two together. -/
theorem lfsrNeverStepsFromNonzeroToZero : Obligations.LfsrNeverStepsFromNonzeroToZero :=
  ⟨lfsrNext_zero, lfsrNext_bijective, fun _ => lfsrNext_ne_zero⟩

theorem iterate_lfsrNext_ne_zero {x : Word} (hx : x ≠ 0#16) (n : Nat) : lfsrNext^[n] x ≠ 0#16 := by
  induction n with
  | zero => exact hx
  | succ n ih =>
    rw [Function.iterate_succ_apply']
    exact lfsrNext_ne_zero ih

end Sys2Proof.Machine
end

section
/-! The period of the PRNG (40_prng.md R146, R147). The LFSR step is linear over xor, so a jump of `2^k`
steps is given by its results at the sixteen words of one bit, and `k` squarings of that table. -/

namespace Sys2Proof.Machine

open Sys2Proof.Config

/-! ## Linear steps -/

/-- A step that commutes with xor. -/
def IsLinear (f : Word → Word) : Prop := ∀ a b, f (a ^^^ b) = f a ^^^ f b

/-- The xor of the words `col i` over the set bits `i < n` of `x`. -/
def xorBits (col : Nat → Word) (x : Word) : Nat → Word
  | 0 => 0#16
  | n + 1 => xorBits col x n ^^^ if x.getLsbD n = true then col n else 0#16

theorem IsLinear.map_zero {f : Word → Word} (hf : IsLinear f) : f 0#16 = 0#16 := by
  simpa using hf 0#16 0#16

theorem IsLinear.map_xorBits {f : Word → Word} (hf : IsLinear f) (col : Nat → Word) (x : Word) (n : Nat) :
    f (xorBits col x n) = xorBits (fun i => f (col i)) x n := by
  induction n with
  | zero => exact hf.map_zero
  | succ n ih =>
    rw [xorBits, hf, ih, apply_ite f, hf.map_zero]
    rfl

theorem xorBits_congr {col col' : Nat → Word} {x : Word} {n : Nat} (h : ∀ i, i < n → col i = col' i) :
    xorBits col x n = xorBits col' x n := by
  induction n with
  | zero => rfl
  | succ n ih => rw [xorBits, xorBits, ih fun i hi => h i (by omega), h n (by omega)]

theorem getLsbD_xorBits_twoPow (x : Word) {n k : Nat} (hk : k < 16) :
    (xorBits (BitVec.twoPow 16) x n).getLsbD k = (decide (k < n) && x.getLsbD k) := by
  induction n with
  | zero => simp [xorBits]
  | succ n ih =>
    rw [xorBits, BitVec.getLsbD_xor, ih, apply_ite (BitVec.getLsbD · k), BitVec.getLsbD_twoPow,
      BitVec.getLsbD_zero]
    rcases Nat.lt_trichotomy k n with h | rfl | h
    · simp [h, Nat.ne_of_gt h, Nat.lt_succ_of_lt h]
    · simp [hk]
    · simp [Nat.not_lt_of_gt h, Nat.ne_of_lt h, Nat.not_le_of_gt h]

/-- A word is the xor of its bits. -/
theorem xorBits_twoPow (x : Word) : xorBits (BitVec.twoPow 16) x 16 = x := by
  apply BitVec.eq_of_getLsbD_eq
  intro k hk
  rw [getLsbD_xorBits_twoPow x hk, decide_eq_true hk, Bool.true_and]

/-! ## Tables of linear steps -/

/-- The results of `f` at the sixteen words of one bit. -/
def columns (f : Word → Word) : List Word := (List.range 16).map fun i => f (BitVec.twoPow 16 i)

/-- The linear step with the table `T`. -/
def applyColumns (T : List Word) (x : Word) : Word := xorBits (fun i => T.getD i 0#16) x 16

/-- The table of the step with table `T` made twice. -/
def squareColumns (T : List Word) : List Word := T.map (applyColumns T)

theorem applyColumns_columns {f : Word → Word} (hf : IsLinear f) (x : Word) :
    applyColumns (columns f) x = f x :=
  calc applyColumns (columns f) x = xorBits (fun i => f (BitVec.twoPow 16 i)) x 16 :=
        xorBits_congr fun i hi => by simp [columns, hi]
    _ = f (xorBits (BitVec.twoPow 16) x 16) := (hf.map_xorBits _ x 16).symm
    _ = f x := by rw [xorBits_twoPow]

theorem squareColumns_columns {f : Word → Word} (hf : IsLinear f) :
    squareColumns (columns f) = columns (f ∘ f) := by
  rw [squareColumns, columns, columns, List.map_map]
  exact List.map_congr_left fun i _ => applyColumns_columns hf _

theorem isLinear_lfsrNext : IsLinear lfsrNext := by
  intro a b
  apply BitVec.eq_of_getLsbD_eq
  intro k hk
  rw [BitVec.getLsbD_xor]
  rcases Nat.lt_or_ge k 15 with h | h
  · have hk14 : k ≤ 14 := by omega
    simp only [getLsbD_lfsrNext_shift _ hk14, BitVec.getLsbD_xor]
  · obtain rfl : k = 15 := by omega
    simp only [getLsbD_lfsrNext_top, BitVec.getLsbD_xor, Bool.xor_assoc, Bool.xor_left_comm]

theorem IsLinear.iterate {f : Word → Word} (hf : IsLinear f) (n : Nat) : IsLinear f^[n] := by
  induction n with
  | zero => exact fun _ _ => rfl
  | succ n ih => exact fun a b => by rw [Function.iterate_succ_apply, hf, ih]; rfl

/-- The table of `2^k` LFSR steps. -/
def jumpColumns (k : Nat) : List Word := squareColumns^[k] (columns lfsrNext)

theorem jumpColumns_eq (k : Nat) : jumpColumns k = columns lfsrNext^[2 ^ k] := by
  induction k with
  | zero => rfl
  | succ k ih =>
    have hlin : IsLinear lfsrNext^[2 ^ k] := isLinear_lfsrNext.iterate _
    have hstep : jumpColumns (k + 1) = squareColumns (jumpColumns k) :=
      Function.iterate_succ_apply' _ _ _
    rw [hstep, ih, squareColumns_columns hlin, ← Function.iterate_add, Nat.pow_succ, Nat.mul_two]

/-- The LFSR steps of `2^k` for every `k` of the list. -/
def jump (ks : List Nat) (x : Word) : Word := ks.foldr (fun k => applyColumns (jumpColumns k)) x

theorem jump_eq (ks : List Nat) (x : Word) : jump ks x = lfsrNext^[(ks.map (2 ^ ·)).sum] x := by
  induction ks with
  | nil => rfl
  | cons k ks ih =>
    have hlin : IsLinear lfsrNext^[2 ^ k] := isLinear_lfsrNext.iterate _
    rw [List.map_cons, List.sum_cons, Function.iterate_add_apply, ← ih, ← applyColumns_columns hlin,
      ← jumpColumns_eq]
    rfl

/-! ## The period -/

/-- `2^16` steps lead from the seed to its successor, and none of 65535 / 257, 65535 / 17, 65535 / 5 and
65535 / 3 steps leads back to it. -/
theorem jump_seed :
    jump [16] SEED = lfsrNext SEED ∧
    jump [0, 1, 2, 3, 4, 5, 6, 7] SEED ≠ SEED ∧ jump [0, 1, 2, 3, 8, 9, 10, 11] SEED ≠ SEED ∧
    jump [0, 1, 4, 5, 8, 9, 12, 13] SEED ≠ SEED ∧ jump [0, 2, 4, 6, 8, 10, 12, 14] SEED ≠ SEED := by
  decide +kernel

theorem isPeriodicPt_seed : Function.IsPeriodicPt lfsrNext 65535 SEED := by
  have h := jump_seed.1
  rw [jump_eq, show ([16].map (2 ^ ·)).sum = 65535 + 1 by decide, Function.iterate_succ_apply'] at h
  exact lfsrNext_injective h

theorem not_isPeriodicPt_seed {ks : List Nat} {n : Nat} (h : jump ks SEED ≠ SEED)
    (hn : (ks.map (2 ^ ·)).sum = n) : ¬ Function.IsPeriodicPt lfsrNext n SEED := by
  rwa [jump_eq, hn] at h

/-- A divisor of 65535 = 3 · 5 · 17 · 257 other than itself divides one of its four largest divisors. -/
theorem eq_of_dvd_65535 {m : Nat} (h : m ∣ 65535) (h257 : ¬ m ∣ 255) (h17 : ¬ m ∣ 3855)
    (h5 : ¬ m ∣ 13107) (h3 : ¬ m ∣ 21845) : m = 65535 := by
  obtain ⟨c, hc⟩ := h
  by_contra hm
  have hc1 : c ≠ 1 := by rintro rfl; omega
  obtain ⟨p, hp, q, rfl⟩ := Nat.exists_prime_and_dvd hc1
  have hdvd : p ∣ 3 * 5 * 17 * 257 := ⟨m * q, by rw [← Nat.mul_left_comm, ← hc]⟩
  have hdiv : m ∣ 65535 / p := ⟨q, by rw [hc, Nat.mul_left_comm, Nat.mul_div_cancel_left _ hp.pos]⟩
  simp only [hp.dvd_mul, Nat.prime_dvd_prime_iff_eq hp (by norm_num : Nat.Prime 3),
    Nat.prime_dvd_prime_iff_eq hp (by norm_num : Nat.Prime 5),
    Nat.prime_dvd_prime_iff_eq hp (by norm_num : Nat.Prime 17),
    Nat.prime_dvd_prime_iff_eq hp (by norm_num : Nat.Prime 257)] at hdvd
  rcases hdvd with ((rfl | rfl) | rfl) | rfl
  · exact h3 hdiv
  · exact h5 hdiv
  · exact h17 hdiv
  · exact h257 hdiv

theorem minimalPeriod_seed : Function.minimalPeriod lfsrNext SEED = 65535 := by
  obtain ⟨_, h257, h17, h5, h3⟩ := jump_seed
  apply eq_of_dvd_65535 isPeriodicPt_seed.minimalPeriod_dvd <;>
    rw [← Function.isPeriodicPt_iff_minimalPeriod_dvd]
  · exact not_isPeriodicPt_seed h257 (by decide)
  · exact not_isPeriodicPt_seed h17 (by decide)
  · exact not_isPeriodicPt_seed h5 (by decide)
  · exact not_isPeriodicPt_seed h3 (by decide)

/-! ## The values drawn in one period -/

/-- Draw number `k + 1` from the seed, as a number. -/
def drawn (k : Nat) : Nat := (lfsrNext^[k + 1] SEED).toNat

theorem drawn_injOn {j k : Nat} (hj : j < 65535) (hk : k < 65535) (h : drawn j = drawn k) : j = k := by
  have hiter : lfsrNext^[j] SEED = lfsrNext^[k] SEED := by
    have hnext := BitVec.eq_of_toNat_eq h
    rw [Function.iterate_succ_apply', Function.iterate_succ_apply'] at hnext
    exact lfsrNext_injective hnext
  exact (Function.iterate_eq_iterate_iff_of_lt_minimalPeriod (by rwa [minimalPeriod_seed])
    (by rwa [minimalPeriod_seed])).1 hiter

theorem drawn_pos (k : Nat) : 0 < drawn k :=
  Nat.pos_of_ne_zero fun h =>
    iterate_lfsrNext_ne_zero (x := SEED) (by decide) (k + 1) (BitVec.eq_of_toNat_eq h)

/-- One period draws the numbers 1 to 65535 in some order: 65535 different positive numbers of 16 bits. -/
theorem drawn_perm : ((List.range 65535).map drawn).Perm ((List.range 65535).map (· + 1)) := by
  refine (List.Nodup.subperm ?_ ?_).perm_of_length_le ?_
  · exact List.nodup_range.map_on fun j hj k hk =>
      drawn_injOn (List.mem_range.1 hj) (List.mem_range.1 hk)
  · intro v hv
    obtain ⟨k, _, rfl⟩ := List.mem_map.1 hv
    have hlt : drawn k < 2 ^ 16 := BitVec.isLt _
    have hpos := drawn_pos k
    exact List.mem_map.2 ⟨drawn k - 1, List.mem_range.2 (by omega), by omega⟩
  · simp only [List.length_map, Nat.le_refl]

theorem exists_drawn {v : Word} (hv : v ≠ 0#16) : ∃ k, k < 65535 ∧ drawn k = v.toNat := by
  have hpos : 0 < v.toNat := Nat.pos_of_ne_zero fun h => hv (BitVec.eq_of_toNat_eq h)
  have hmem : v.toNat ∈ (List.range 65535).map drawn :=
    drawn_perm.mem_iff.2 (List.mem_map.2 ⟨v.toNat - 1, List.mem_range.2 (by omega), by omega⟩)
  obtain ⟨k, hk, hkv⟩ := List.mem_map.1 hmem
  exact ⟨k, List.mem_range.1 hk, hkv⟩

/-- Settles O15: the minimal period of the seed, and the permutation of the values that it gives. -/
theorem lfsrPeriodFromTheSeedIs65535 : Obligations.LfsrPeriodFromTheSeedIs65535 := by
  refine ⟨isPeriodicPt_seed, fun k h0 hk => ?_, fun v hv => ?_⟩
  · exact Function.not_isPeriodicPt_of_pos_of_lt_minimalPeriod (Nat.ne_of_gt h0)
      (by rwa [minimalPeriod_seed])
  · obtain ⟨k, hk, hkv⟩ := exists_drawn hv
    refine ⟨k, ⟨hk, BitVec.eq_of_toNat_eq hkv⟩, fun j ⟨hj, hjv⟩ => drawn_injOn hj hk ?_⟩
    rw [hkv, drawn, hjv]

/-- Among the numbers 1 to `n`, `n / 10` or one more have a given residue modulo 10. -/
theorem countP_succ_mod_ten (n r : Nat) (hr : r < 10) :
    (List.range n).countP (fun k => (k + 1) % 10 == r) =
      (n + 1) / 10 + (if r < (n + 1) % 10 then 1 else 0) - if r = 0 then 1 else 0 := by
  have hcount := Nat.count_modEq_card (n + 1) (r := 10) (by decide) r
  simp only [Nat.count_succ', Nat.ModEq, Nat.mod_eq_of_lt hr, Nat.zero_mod, eq_comm (a := 0)] at hcount
  rw [← hcount, Nat.add_sub_cancel]
  rfl

/-- Settles O16: the draws of one period are the numbers 1 to 65535 in some order. -/
theorem residuesDrawnOverOnePeriod : Obligations.ResiduesDrawnOverOnePeriod := by
  intro r hr
  calc (List.range 65535).countP (fun k => (lfsrNext^[k + 1] SEED).toNat % 10 == r)
      = ((List.range 65535).map drawn).countP (fun v => v % 10 == r) := by
        rw [List.countP_map]; rfl
    _ = ((List.range 65535).map (· + 1)).countP (fun v => v % 10 == r) := drawn_perm.countP_eq _
    _ = (List.range 65535).countP (fun k => (k + 1) % 10 == r) := by
        rw [List.countP_map]; rfl
    _ = if 1 ≤ r ∧ r ≤ 5 then 6554 else 6553 := by
        rw [countP_succ_mod_ten _ _ hr]
        split_ifs <;> omega

end Sys2Proof.Machine
end

section
/-! The invariants of 10_state.md R59: they hold at reset and every step of every agent keeps them; so no
run from an invariant state stops (60_exceptions.md R300, R305). Beside them, every display write lies
inside the region (42_renderer.md R180). -/

namespace Sys2Proof.Machine

open Sys2Proof.Config

variable {s t : State}

/-! ## The stores -/

/-- Item 2 of R59: every cell is DEAD or ALIVE, and every border cell DEAD. -/
def GridOk (g : Grid) : Prop :=
  ∀ i, i < N → (cell g i = DEAD ∨ cell g i = ALIVE) ∧ (border i = true → cell g i = DEAD)

/-- Item 3 of R59: every count is at most 8, and every border count 0. -/
def CountsOk (b : Counts) : Prop :=
  ∀ i, i < N → (count b i).toNat ≤ 8 ∧ (border i = true → count b i = 0#4)

theorem Inv.gridOk (h : Inv s) : GridOk s.G := fun i hi => ⟨h.cells i hi, h.borderCells i hi⟩

theorem Inv.countsOk (h : Inv s) : CountsOk s.C := fun i hi => ⟨h.counts i hi, h.borderCounts i hi⟩

theorem gridOk_dead : GridOk (Vector.replicate N DEAD) := fun i _ =>
  ⟨.inl (cell_replicate i), fun _ => cell_replicate i⟩

theorem countsOk_zero : CountsOk (Vector.replicate N 0#4) := fun i _ => by simp

theorem gridOk_initCells (s : State) : GridOk (initCells s).G := by
  refine fun i hi => ⟨?_, initCells_cell_of_border s hi⟩
  rw [initCells_cell s hi]
  split
  · exact .inr rfl
  · exact .inl rfl

theorem countsOk_initCells (s : State) : CountsOk (initCells s).C := fun i hi => by
  simp [initCells_count s hi]

/-- A generation keeps the border, and the rule answers DEAD or ALIVE for any count. -/
theorem gridOk_evolveBody (h : GridOk s.G) : GridOk (evolveBody s).G := by
  intro i hi
  obtain ⟨hcell, hborder⟩ := h i hi
  refine ⟨?_, fun hb => (evolveBody_keeps_border s hi hb).1.trans (hborder hb)⟩
  rw [evolveBody_cell s hi]
  split
  · exact rule_two_valued _ _
  · exact hcell

/-- A generation keeps the border counts, and a cell has at most eight neighbours (43_evolver.md R203). -/
theorem countsOk_evolveBody (h : CountsOk s.C) : CountsOk (evolveBody s).C := by
  intro i hi
  obtain ⟨hcount, hborder⟩ := h i hi
  refine ⟨?_, fun hb => (evolveBody_keeps_border s hi hb).2.trans (hborder hb)⟩
  rw [evolveBody_count s hi]
  split
  · rw [ncount_toNat]
    exact ncount_le _ _
  · exact hcount

/-- A CELL_DATA write stores DEAD or ALIVE in an interior cell. -/
theorem gridOk_setCell {i : Nat} {b : Byte} (h : GridOk s.G) (hi : border i = false)
    (hb : b = DEAD ∨ b = ALIVE) : GridOk (setCell i b s).G := by
  intro j hj
  rw [cell_setCell]
  split
  · rename_i hw
    obtain ⟨_, rfl⟩ := hw
    exact ⟨hb, fun hborder => by simp [hi] at hborder⟩
  · exact h j hj

/-! ## Updates of the stores and of the host's side -/

/-- The invariant asks of the stores only what each must satisfy by itself. -/
theorem Inv.withStores {x n : Word} {g : Grid} {b : Counts} {d : Memory} {tr : List DispW} (h : Inv s)
    (hx : x ≠ 0#16) (hg : GridOk g) (hb : CountsOk b) (hd : Memory.wf d) :
    Inv { s with S := x, G := g, C := b, genCount := n, display := d, dispTrace := tr } :=
  { h with
    prng := hx
    cells := fun i hi => (hg i hi).1
    borderCells := fun i hi => (hg i hi).2
    counts := fun i hi => (hb i hi).1
    borderCounts := fun i hi => (hb i hi).2
    display := hd }

theorem Inv.setInputs (h : Inv s) (rest : List Input) : Inv (setInputs rest s) := { h with }

theorem Inv.answer (h : Inv s) (v : Word) : Inv (answer v s) := { h with }

theorem Inv.answerUnstable (h : Inv s) (v : Word) : Inv (answerUnstable v s) := by
  rcases answerUnstable_cases v s with ⟨_, e⟩ | ⟨_, e⟩ <;> rw [e]
  · exact { h with }
  · exact h.answer v

theorem Inv.clearError (h : Inv s) : Inv (clearError s) :=
  { h with noErr := fun _ => rfl, errSet := fun he => by cases he }

theorem Error.code_range (e : Error) : 1 ≤ e.code.toNat ∧ e.code.toNat ≤ 5 := by
  cases e <;> decide

theorem Inv.raiseError (h : Inv s) (e : Error) : Inv (raiseError e s) := by
  cases he : s.err with
  | true => rwa [raiseError_recorded e he]
  | false =>
    rw [raiseError_first e he]
    exact { h with noErr := fun hno => (by cases hno), errSet := fun _ => e.code_range }

theorem Inv.requestStop (h : Inv s) : Inv (requestStop s) := by
  cases hr : s.running with
  | true =>
    rw [requestStop_running hr]
    exact { h with stopRunning := fun _ => hr }
  | false => rwa [requestStop_not_running hr]

/-! ## Accepted transactions -/

theorem Inv.op_of_idle (h : Inv s) (hb : s.busy = false) : s.op = .none := h.busyOp.1 hb

theorem Inv.running_eq_false (h : Inv s) (ho : s.op ≠ .run) : s.running = false := by
  simpa using mt h.runningOp.1 ho

/-- Accepting an operation other than RUN while idle (R160, R170, R181, R200). -/
theorem Inv.acceptOp {o : Op} (h : Inv s) (hb : s.busy = false) (hnone : o ≠ .none) (hrun : o ≠ .run) :
    Inv (acceptOp o s) := by
  have hr : s.running = false := h.running_eq_false (by simp [h.op_of_idle hb])
  exact { h with
    busyOp := by simp [hnone]
    runningOp := by simp [hr, hrun] }

/-- Accepting RUN: a bounded run starts with GEN_LIMIT > 0 iterations (R241). -/
theorem Inv.acceptRun (h : Inv s) : Inv (acceptRun s) :=
  { h with
    busyOp := by simp
    runningOp := by simp
    stopRunning := fun _ => rfl
    runLeft := fun _ hinf => by
      have hlimit : s.genLimit ≠ 0#16 := by simpa using hinf
      exact Nat.pos_of_ne_zero fun h0 => hlimit (BitVec.eq_of_toNat_eq h0) }

theorem Inv.writeCellData (h : Inv s) (v : Word) : Inv (writeCellData v s) := by
  rcases writeCellData_cases v s with ⟨_, e⟩ | ⟨_, _, e⟩ | ⟨_, _, _, e⟩ | ⟨_, hbord, hv, e⟩ <;> rw [e]
  · exact h.raiseError .range
  · exact h.raiseError .border
  · exact h.raiseError .badValue
  · exact h.withStores h.prng (gridOk_setCell h.gridOk hbord (legalCellValue_byte hv)) h.countsOk h.display

theorem Inv.gated_act {i : Instr} {act : State → State} (h : Inv s) (hg : Gated i act)
    (hb : s.busy = false) : Inv (act s) := by
  cases hg with
  | run => exact h.acceptRun
  | next => exact h.withStores (lfsrNext_ne_zero h.prng) h.gridOk h.countsOk h.display
  | wrCellData v => exact h.writeCellData v
  | wrCellAddr v | wrGenLimit v => exact { h with }
  | init | clear | evolve | render => exact h.acceptOp hb (by decide) (by decide)

theorem exec_keeps_inv {i : Instr} (h : Inv s) (ht : exec i s = .next t) : Inv t := by
  rcases exec_cases i s with
    ⟨v, e⟩ | ⟨v, e⟩ | e | ⟨_, e⟩ | ⟨_, e⟩ | e | ⟨act, hg, e⟩ <;>
    obtain rfl := Host.Outcome.next.inj (e.symm.trans ht)
  · exact h.answer v
  · exact h.answerUnstable v
  · exact h
  · exact h.requestStop
  · exact h.clearError
  · exact h.raiseError .illegalCmd
  · rcases unlessBusy_cases act s with ⟨_, e⟩ | ⟨hb, e⟩ <;> rw [e]
    · exact h.raiseError .busy
    · exact h.gated_act hg hb

/-! ## The engine -/

theorem Inv.finishOp (h : Inv s) (ho : s.op ≠ .run) : Inv (finishOp s) :=
  { h with
    busyOp := by simp
    runningOp := by simp [h.running_eq_false ho] }

theorem Inv.zeroGenCount (h : Inv s) : Inv (zeroGenCount s) := { h with }

theorem Inv.endRun (h : Inv s) : Inv (endRun s) :=
  { h with
    busyOp := by simp
    runningOp := by simp
    stopRunning := fun hs => by cases hs
    runLeft := fun hr => by cases hr }

theorem Inv.initCells (h : Inv s) : Inv (initCells s) := by
  rw [initCells_frame]
  refine h.withStores ?_ (gridOk_initCells s) (countsOk_initCells s) h.display
  rw [initCells_S]
  exact iterate_lfsrNext_ne_zero h.prng _

theorem Inv.clearCells (h : Inv s) : Inv (clearCells s) := by
  rw [clearCells_eq]
  exact h.withStores h.prng gridOk_dead countsOk_zero h.display

theorem Inv.evolveBody (h : Inv s) : Inv (evolveBody s) := by
  rw [evolveBody_frame]
  exact h.withStores h.prng (gridOk_evolveBody h.gridOk) (countsOk_evolveBody h.countsOk) h.display

theorem Inv.renderBody (h : Inv s) : Inv (renderBody s) := by
  rw [renderBody_frame]
  exact h.withStores h.prng h.gridOk h.countsOk (renderBody_wf h.display)

/-- The end of an iteration leaves a bounded run with iterations, or ends it (44_mainloop.md R242). -/
theorem Inv.countIteration (h : Inv s) : Inv (countIteration s) := by
  rcases countIteration_cases s with ⟨_, e⟩ | ⟨_, h0, e⟩ | ⟨_, _, e⟩ <;> rw [e]
  · exact h
  · exact { h with
      runLeft := fun _ _ => Nat.pos_of_ne_zero fun hz => h0 (BitVec.eq_of_toNat_eq hz) }
  · exact { h.endRun with runLeft := fun hr => by cases hr }

theorem Inv.performRunStep (h : Inv s) : Inv (performRunStep s) := by
  cases hs : s.stopPend with
  | true =>
    rw [performRunStep_stop hs]
    exact h.endRun
  | false =>
    rw [performRunStep_iterate hs]
    exact h.renderBody.evolveBody.countIteration

theorem engineStep_keeps_inv (h : Inv s) (ht : engineStep s = .next t) : Inv t := by
  rcases engineStep_cases s with
    ⟨_, e⟩ | ⟨_, _, e⟩ | ⟨_, ho, e⟩ | ⟨_, ho, e⟩ | ⟨_, ho, e⟩ | ⟨_, ho, e⟩ | ⟨_, _, e⟩
  case inr.inl => rw [e] at ht; cases ht
  all_goals obtain rfl := Host.Outcome.next.inj (e.symm.trans ht)
  · exact h
  · exact h.initCells.zeroGenCount.finishOp (by simp [ho])
  · exact h.clearCells.zeroGenCount.finishOp (by simp [ho])
  · exact h.evolveBody.finishOp (by simp [ho])
  · exact h.renderBody.finishOp (by simp [ho])
  · exact h.performRunStep

/-! ## Reset -/

theorem inv_resetBlock (h : Memory.wf s.display) : Inv (resetBlock s) where
  prng := by rw [resetBlock_S]; decide
  cells i hi := (gridOk_dead i hi).1
  borderCells i hi := (gridOk_dead i hi).2
  counts i hi := (countsOk_zero i hi).1
  borderCounts i hi := (countsOk_zero i hi).2
  busyOp := by simp
  runningOp := by simp
  stopRunning hs := by cases hs
  noErr _ := rfl
  errSet he := by cases he
  runLeft hr := by cases hr
  display := h

/-- Settles O8: the reset state is its own reset. -/
theorem resetStateMeetsTheInvariant : Obligations.ResetStateMeetsTheInvariant :=
  inv_resetBlock (s := State.reset) reset_display_wf

theorem mem_pendingWrites_off {w : DispW} (hw : w ∈ pendingWrites s) : w.off.toNat < DISP_BYTES := by
  by_cases ho : s.op = .render ∨ s.op = .run
  · rw [pendingWrites_rendering ho] at hw
    exact renderWrites_off _ hw
  · rw [not_or] at ho
    rw [pendingWrites_not_rendering ho.1 ho.2] at hw
    cases hw

/-- The writes that an interrupted operation leaves keep the display canonical (R342). -/
theorem interrupt_display_wf (k : Nat) (h : Memory.wf s.display) : Memory.wf (interrupt k s).display := by
  rcases interrupt_cases k s with ⟨_, e⟩ | ⟨_, e⟩ <;> rw [e]
  · rw [dispWrites_display]
    exact writes_wf _ _ (fun w hw => mem_pendingWrites_off (List.mem_of_mem_take hw)) h
  · exact h

theorem Inv.hardReset (h : Inv s) (k : Nat) : Inv (hardReset k s) :=
  inv_resetBlock (interrupt_display_wf k h.display)

theorem Inv.powerUp (h : Inv s) (k : Nat) : Inv (powerUp k s) :=
  { h.hardReset k with display := reset_display_wf }

/-! ## Every step -/

/-- Settles O9: whichever agent moves, its step keeps the invariant. -/
theorem everyStepKeepsTheInvariant : Obligations.EveryStepKeepsTheInvariant := by
  intro s t h ht
  rcases step_cases s with
    ⟨_, e⟩ | ⟨rest, _, e⟩ | ⟨w, rest, _, e⟩ | ⟨k, p, rest, _, e⟩ | ⟨k, rest, _, e⟩ <;> rw [e] at ht
  · exact engineStep_keeps_inv h ht
  · exact engineStep_keeps_inv (h.setInputs rest) ht
  · exact exec_keeps_inv (h.setInputs rest) ht
  · obtain rfl := Host.Outcome.next.inj ht
    exact (h.setInputs rest).hardReset k
  · obtain rfl := Host.Outcome.next.inj ht
    exact (h.setInputs rest).powerUp k

/-! ## Runs -/

/-- The engine's step with an operation pending answers a next state (60_exceptions.md R305). -/
theorem engineStep_next_of_pending (ho : s.op ≠ .none) : ∃ t, engineStep s = .next t := by
  rcases engineStep_cases s with
    ⟨_, e⟩ | ⟨_, hnone, _⟩ | ⟨_, _, e⟩ | ⟨_, _, e⟩ | ⟨_, _, e⟩ | ⟨_, _, e⟩ | ⟨_, _, e⟩
  case inr.inl => exact absurd hnone ho
  all_goals exact ⟨_, e⟩

theorem Inv.engineStep_next (h : Inv s) : ∃ t, engineStep s = .next t := by
  cases hb : s.busy with
  | false => exact ⟨s, engineStep_idle hb⟩
  | true => exact engineStep_next_of_pending fun hnone => by simp [h.busyOp.2 hnone] at hb

/-- No step from an invariant state faults or is refused. -/
theorem Inv.step_next (h : Inv s) : ∃ t, step s = .next t := by
  rcases step_cases s with
    ⟨_, e⟩ | ⟨rest, _, e⟩ | ⟨w, rest, _, e⟩ | ⟨k, p, rest, _, e⟩ | ⟨k, rest, _, e⟩ <;> rw [e]
  · exact h.engineStep_next
  · exact (h.setInputs rest).engineStep_next
  · exact exec_next _ _
  · exact ⟨_, rfl⟩
  · exact ⟨_, rfl⟩

/-- Settles O10: every step of the run answers a next state, which is invariant again. -/
theorem noRunFromAnInvariantStateStops : Obligations.NoRunFromAnInvariantStateStops := by
  intro n
  induction n with
  | zero => exact fun s _ => ⟨s, run_zero s⟩
  | succ n ih =>
    intro s h
    obtain ⟨t, ht⟩ := h.step_next
    obtain ⟨u, hu⟩ := ih t (everyStepKeepsTheInvariant s t h ht)
    exact ⟨u, (run_next ht).trans hu⟩

end Sys2Proof.Machine
end

section
/-! What a transaction and the engine may change (10_state.md R35, R41; 00_scope.md R13): said once for
every transaction, and read off for the grid and for the record of display writes. -/

namespace Sys2Proof.Machine

open Sys2Proof.Config Sys2Proof.Claims

variable {s s' t : State} {i : Instr}

/-! ## Everything a transaction may change -/

/-- A transaction changes the error and what the host has read only, or it is STOP, or BUSY is 0 and it
performs its action. -/
theorem exec_effect_cases (h : exec i s = .next t) :
    SameButErrors s t ∨ (i = .stop ∧ t = requestStop s) ∨
      ∃ act, Gated i act ∧ s.busy = false ∧ t = act s := by
  rcases exec_cases i s with
    ⟨v, e⟩ | ⟨v, e⟩ | e | ⟨hi, e⟩ | ⟨_, e⟩ | e | ⟨act, hg, e⟩ <;>
    obtain rfl := Host.Outcome.next.inj (e.symm.trans h)
  · exact .inl rfl
  · rcases answerUnstable_cases v s with ⟨_, e⟩ | ⟨_, e⟩ <;> rw [e] <;> exact .inl rfl
  · exact .inl rfl
  · exact .inr (.inl ⟨hi, rfl⟩)
  · exact .inl rfl
  · exact .inl (withoutErrors_raiseError _ s).symm
  · rcases unlessBusy_cases act s with ⟨_, e⟩ | ⟨hb, e⟩ <;> rw [e]
    · exact .inl (withoutErrors_raiseError _ s).symm
    · exact .inr (.inr ⟨act, hg, hb, rfl⟩)

theorem sameButErrors_G (h : SameButErrors s s') : s'.G = s.G := by
  change (withoutErrors s').G = (withoutErrors s).G
  rw [sameButErrors_iff.1 h]

theorem sameButErrors_op (h : SameButErrors s s') : s'.op = s.op := by
  change (withoutErrors s').op = (withoutErrors s).op
  rw [sameButErrors_iff.1 h]

theorem sameButErrors_dispTrace (h : SameButErrors s s') : s'.dispTrace = s.dispTrace := by
  change (withoutErrors s').dispTrace = (withoutErrors s).dispTrace
  rw [sameButErrors_iff.1 h]

theorem requestStop_frame (s : State) : ∃ p, requestStop s = { s with stopPend := p } :=
  ⟨_, requestStop_eq s⟩

/-- A CELL_DATA write changes the error, or one interior cell with no error applying. -/
theorem writeCellData_effect (v : Word) (s : State) :
    SameButErrors s (writeCellData v s) ∨
      s.cellAddr.toNat < N ∧ border s.cellAddr.toNat = false ∧ (v = 0x0000#16 ∨ v = 0x00FF#16) ∧
        ∃ b, writeCellData v s = setCell s.cellAddr.toNat b s := by
  rcases writeCellData_cases v s with ⟨_, e⟩ | ⟨_, _, e⟩ | ⟨_, _, _, e⟩ | ⟨hr, hbord, hv, e⟩
  · exact .inl (by rw [e]; exact (withoutErrors_raiseError _ s).symm)
  · exact .inl (by rw [e]; exact (withoutErrors_raiseError _ s).symm)
  · exact .inl (by rw [e]; exact (withoutErrors_raiseError _ s).symm)
  · exact .inr ⟨hr, hbord, legalCellValue_iff.1 hv, _, e⟩

/-! ## The inputs and the pending operation -/

theorem Gated.act_inputs {act : State → State} (h : Gated i act) (s : State) :
    (act s).inputs = s.inputs := by
  cases h with
  | wrCellData v =>
    rcases writeCellData_effect v s with h | ⟨_, _, _, b, e⟩
    · exact (sameButErrors_inputs h).symm
    · rw [e]; rfl
  | _ => rfl

theorem exec_inputs (h : exec i s = .next t) : t.inputs = s.inputs := by
  rcases exec_effect_cases h with hsame | ⟨_, rfl⟩ | ⟨act, hg, _, rfl⟩
  · exact (sameButErrors_inputs hsame).symm
  · obtain ⟨p, e⟩ := requestStop_frame s
    rw [e]
  · exact hg.act_inputs s

/-- While BUSY no transaction changes the pending operation (10_state.md R41). -/
theorem exec_op_of_busy (h : exec i s = .next t) (hb : s.busy = true) : t.op = s.op := by
  rcases exec_effect_cases h with hsame | ⟨_, rfl⟩ | ⟨act, _, hidle, _⟩
  · exact sameButErrors_op hsame
  · obtain ⟨p, e⟩ := requestStop_frame s
    rw [e]
  · simp [hb] at hidle

/-- While BUSY a transaction other than STOP changes the error and what the host has read only. -/
theorem exec_of_busy (h : exec i s = .next t) (hb : s.busy = true) (hi : i ≠ .stop) :
    SameButErrors s t := by
  rcases exec_effect_cases h with hsame | ⟨hstop, _⟩ | ⟨act, _, hidle, _⟩
  · exact hsame
  · exact absurd hstop hi
  · simp [hb] at hidle

/-- Settles O52: the transaction changes nothing that the engine reads (`engineStep_alike`). -/
theorem hostCannotDisturbAPendingOperation : Obligations.HostCannotDisturbAPendingOperation := by
  intro s w hb ho hstop
  obtain ⟨u, hu⟩ := exec_next (decode w) s
  obtain ⟨a, ha⟩ := engineStep_next_of_pending ho
  obtain ⟨b, hb', hsame, _⟩ := engineStep_alike (exec_of_busy hu hb hstop) ha
  exact ⟨u, a, b, hu, ha, hb', hsame⟩

/-! ## The grid -/

/-- The only transaction that changes the grid is a CELL_DATA write to which no error applies. -/
theorem exec_G_cases {w : Transaction} (h : exec (decode w) s = .next t) :
    t.G = s.G ∨ (∃ v, decode w = .wrCellData v ∧ firstError w s = none) ∧
      ∀ j, j ≠ s.cellAddr.toNat → cell t.G j = cell s.G j := by
  generalize hi : decode w = i at h
  rcases exec_effect_cases h with hsame | ⟨_, rfl⟩ | ⟨act, hg, hb, rfl⟩
  · exact .inl (sameButErrors_G hsame)
  · obtain ⟨p, e⟩ := requestStop_frame s
    exact .inl (by rw [e])
  · cases hg with
    | wrCellData v =>
      rcases writeCellData_effect v s with hsame | ⟨hr, hbord, hv, b, e⟩
      · exact .inl (sameButErrors_G hsame)
      · refine .inr ⟨⟨v, rfl, ?_⟩, fun j hj => ?_⟩
        · rw [firstError_of_wrCellData hi hb, if_neg (Nat.not_le.2 hr), if_neg (by simp [hbord]),
            if_neg fun hbad => not_or.2 hbad hv]
        · rw [e, cell_setCell, if_neg fun hw => hj hw.2]
    | _ => exact .inl rfl

theorem performRender_G (s : State) : (performRender s).G = s.G := by
  rw [performRender_eq]

/-- The engine's step changes the grid for the operations other than RENDER only. -/
theorem engineStep_G_cases (h : engineStep s = .next t) :
    t.G = s.G ∨ s.busy = true ∧ s.op ≠ .none ∧ s.op ≠ .render := by
  rcases engineStep_cases s with
    ⟨_, e⟩ | ⟨_, _, e⟩ | ⟨hb, ho, _⟩ | ⟨hb, ho, _⟩ | ⟨hb, ho, _⟩ | ⟨_, _, e⟩ | ⟨hb, ho, _⟩
  · obtain rfl := Host.Outcome.next.inj (e.symm.trans h)
    exact .inl rfl
  · rw [e] at h; cases h
  · exact .inr ⟨hb, by simp [ho], by simp [ho]⟩
  · exact .inr ⟨hb, by simp [ho], by simp [ho]⟩
  · exact .inr ⟨hb, by simp [ho], by simp [ho]⟩
  · obtain rfl := Host.Outcome.next.inj (e.symm.trans h)
    exact .inl (performRender_G s)
  · exact .inr ⟨hb, by simp [ho], by simp [ho]⟩

theorem cell_hardReset (k j : Nat) (s : State) : cell (hardReset k s).G j = DEAD := cell_replicate j

theorem cell_powerUp (k j : Nat) (s : State) : cell (powerUp k s).G j = DEAD := cell_replicate j

/-- Settles O53: the rule on the grid of the agent that moves. -/
theorem onlyCellWritesEngineAndResetChangeTheGrid :
    Obligations.OnlyCellWritesEngineAndResetChangeTheGrid := by
  intro s t h
  rcases step_cases s with
    ⟨hin, e⟩ | ⟨rest, hin, e⟩ | ⟨w, rest, hin, e⟩ | ⟨k, p, rest, hin, e⟩ | ⟨k, rest, hin, e⟩
  · exact (engineStep_G_cases (e.symm.trans h)).imp_right fun hmove => .inr (.inl ⟨.inl hin, hmove⟩)
  · exact (engineStep_G_cases (e.symm.trans h)).imp_right fun hmove =>
      .inr (.inl ⟨.inr ⟨rest, hin⟩, hmove⟩)
  · exact (exec_G_cases (e.symm.trans h)).imp_right fun ⟨⟨v, hd, hnone⟩, hother⟩ =>
      .inl ⟨⟨w, v, rest, hin, hd, hnone⟩, fun j _ hj => hother j hj⟩
  · obtain rfl := Host.Outcome.next.inj (e.symm.trans h)
    exact .inr (.inr (.inr ⟨.inl ⟨k, p, rest, hin⟩, fun j _ => cell_hardReset k j _⟩))
  · obtain rfl := Host.Outcome.next.inj (e.symm.trans h)
    exact .inr (.inr (.inr ⟨.inr ⟨k, rest, hin⟩, fun j _ => cell_powerUp k j _⟩))

/-! ## The record of display writes -/

theorem Gated.act_dispTrace {act : State → State} (h : Gated i act) (s : State) :
    (act s).dispTrace = s.dispTrace := by
  cases h with
  | wrCellData v =>
    rcases writeCellData_effect v s with h | ⟨_, _, _, b, e⟩
    · exact sameButErrors_dispTrace h
    · rw [e]; rfl
  | _ => rfl

/-- No transaction writes the display (20_memory.md R72). -/
theorem exec_dispTrace (h : exec i s = .next t) : t.dispTrace = s.dispTrace := by
  rcases exec_effect_cases h with hsame | ⟨_, rfl⟩ | ⟨act, hg, _, rfl⟩
  · exact sameButErrors_dispTrace hsame
  · obtain ⟨p, e⟩ := requestStop_frame s
    rw [e]
  · exact hg.act_dispTrace s

/-- A RENDER or RUN of `s` has issued the first writes of a RENDER of its grid, up to all of them. -/
def RenderedPrefix (s t : State) : Prop :=
  s.busy = true ∧ (s.op = .render ∨ s.op = .run) ∧
    ∃ k, t.dispTrace = ((renderWrites s.G).take k).reverse ++ s.dispTrace

@[simp] theorem countIteration_dispTrace (s : State) : (countIteration s).dispTrace = s.dispTrace := by
  rcases countIteration_cases s with ⟨_, e⟩ | ⟨_, _, e⟩ | ⟨_, _, e⟩ <;> simp [e]

theorem performInit_dispTrace (s : State) : (performInit s).dispTrace = s.dispTrace := by
  rw [performInit_eq]

theorem performClear_dispTrace (s : State) : (performClear s).dispTrace = s.dispTrace := by
  rw [performClear_eq]

theorem performEvolve_dispTrace (s : State) : (performEvolve s).dispTrace = s.dispTrace := by
  rw [performEvolve_eq]

theorem performRender_dispTrace (s : State) :
    (performRender s).dispTrace = (renderWrites s.G).reverse ++ s.dispTrace := by
  rw [performRender_eq]

theorem performRunStep_dispTrace (s : State) :
    (performRunStep s).dispTrace = s.dispTrace ∨
      (performRunStep s).dispTrace = (renderWrites s.G).reverse ++ s.dispTrace := by
  cases hs : s.stopPend with
  | true =>
    rw [performRunStep_stop hs]
    exact .inl rfl
  | false =>
    rw [performRunStep_iterate hs]
    exact .inr (by simp)

theorem renderedPrefix_of_all (hb : s.busy = true) (ho : s.op = .render ∨ s.op = .run)
    (h : t.dispTrace = (renderWrites s.G).reverse ++ s.dispTrace) : RenderedPrefix s t :=
  ⟨hb, ho, _, by rw [h, List.take_length]⟩

theorem engineStep_dispTrace_cases (h : engineStep s = .next t) :
    t.dispTrace = s.dispTrace ∨ RenderedPrefix s t := by
  rcases engineStep_cases s with
    ⟨_, e⟩ | ⟨_, _, e⟩ | ⟨_, _, e⟩ | ⟨_, _, e⟩ | ⟨_, _, e⟩ | ⟨hb, ho, e⟩ | ⟨hb, ho, e⟩
  case inr.inl => rw [e] at h; cases h
  all_goals obtain rfl := Host.Outcome.next.inj (e.symm.trans h)
  · exact .inl rfl
  · exact .inl (performInit_dispTrace s)
  · exact .inl (performClear_dispTrace s)
  · exact .inl (performEvolve_dispTrace s)
  · exact .inr (renderedPrefix_of_all hb (.inl ho) (performRender_dispTrace s))
  · exact (performRunStep_dispTrace s).imp_right (renderedPrefix_of_all hb (.inr ho))

theorem interrupt_dispTrace_cases (k : Nat) (s : State) :
    (interrupt k s).dispTrace = s.dispTrace ∨ RenderedPrefix s (interrupt k s) := by
  rcases interrupt_cases k s with ⟨hb, e⟩ | ⟨_, e⟩ <;> rw [e]
  · by_cases ho : s.op = .render ∨ s.op = .run
    · rw [pendingWrites_rendering ho]
      exact .inr ⟨hb, ho, k, dispWrites_dispTrace s _⟩
    · rw [not_or] at ho
      rw [pendingWrites_not_rendering ho.1 ho.2, List.take_nil]
      exact .inl rfl
  · exact .inl rfl

theorem powerUp_dispTrace (k : Nat) (s : State) :
    (powerUp k s).dispTrace = (interrupt k s).dispTrace := by
  rw [powerUp_eq]

/-- A step that changes the record issues writes of a RENDER, and it is the engine's, a reset or a loss of
power. -/
theorem step_dispTrace_cases (h : step s = .next t) :
    t.dispTrace = s.dispTrace ∨ RenderedPrefix s t ∧ (EngineMoves s ∨ ResetMoves s) := by
  rcases step_cases s with
    ⟨hin, e⟩ | ⟨rest, hin, e⟩ | ⟨w, rest, hin, e⟩ | ⟨k, p, rest, hin, e⟩ | ⟨k, rest, hin, e⟩
  · exact (engineStep_dispTrace_cases (e.symm.trans h)).imp_right fun hp => ⟨hp, .inl (.inl hin)⟩
  · exact (engineStep_dispTrace_cases (e.symm.trans h)).imp_right fun hp =>
      ⟨hp, .inl (.inr ⟨rest, hin⟩)⟩
  · exact .inl (exec_dispTrace (s := setInputs rest s) (e.symm.trans h))
  · obtain rfl := Host.Outcome.next.inj (e.symm.trans h)
    exact (interrupt_dispTrace_cases k (setInputs rest s)).imp_right fun hp =>
      ⟨hp, .inr (.inl ⟨k, p, rest, hin⟩)⟩
  · obtain rfl := Host.Outcome.next.inj (e.symm.trans h)
    unfold RenderedPrefix
    rw [powerUp_dispTrace]
    exact (interrupt_dispTrace_cases k (setInputs rest s)).imp_right fun hp =>
      ⟨hp, .inr (.inr ⟨k, rest, hin⟩)⟩

/-- Settles O54: `step_dispTrace_cases`. -/
theorem onlyRenderAndRunWriteTheDisplay : Obligations.OnlyRenderAndRunWriteTheDisplay := by
  intro s t h hne
  obtain ⟨⟨hb, ho, _⟩, hmoves⟩ := (step_dispTrace_cases h).resolve_left hne
  exact ⟨hb, ho, hmoves⟩

/-- Settles O11: a new write is one of a RENDER, whose offsets lie below 4000. -/
theorem displayWritesStayInsideTheRegion : Obligations.DisplayWritesStayInsideTheRegion := by
  intro s t hs h w hw
  rcases step_dispTrace_cases h with e | ⟨⟨_, _, k, e⟩, _⟩ <;> rw [e] at hw
  · exact hs w hw
  · rcases List.mem_append.1 hw with hnew | hold
    · exact renderWrites_off s.G (List.mem_of_mem_take (List.mem_reverse.1 hnew))
    · exact hs w hold

end Sys2Proof.Machine
end

section
/-! The remaining host and reset statements: unstable reads (45_host_access.md R273 to R279), the
pseudo-instruction SETCELL (30_encoding.md R114), STOP (44_mainloop.md R243, R244), reset during a stopping
run and the return of power (70_reset_and_hazards.md R342, R344). -/

namespace Sys2Proof.Machine

open Sys2Proof.Config Sys2Proof.Claims

variable {s : State}

/-! ## Unstable reads -/

theorem viewCellData_of_lt (h : s.cellAddr.toNat < N) :
    viewCellData s = s.G[s.cellAddr.toNat].setWidth 16 := by
  rw [viewCellData, if_pos h, cell, dif_pos h]

theorem viewCountData_of_lt (h : s.cellAddr.toNat < N) :
    viewCountData s = s.C[s.cellAddr.toNat].setWidth 16 := by
  rw [viewCountData, if_pos h, count, dif_pos h]

theorem viewCellData_of_le (h : N ≤ s.cellAddr.toNat) : viewCellData s = 0x0000#16 :=
  if_neg (Nat.not_lt.2 h)

theorem viewCountData_of_le (h : N ≤ s.cellAddr.toNat) : viewCountData s = 0x0000#16 :=
  if_neg (Nat.not_lt.2 h)

/-- Settles O41: the three meanings are `answerUnstable` of a register, which is exact while idle. -/
theorem prngCellAndCountReadsWhileIdle : Obligations.PrngCellAndCountReadsWhileIdle := by
  refine ⟨by decide, by decide, by decide, fun s hb => ?_⟩
  have hS : exec .rdPrngState s = .next (answer s.S s) := congrArg _ (answerUnstable_idle _ hb)
  have hG : exec .rdCellData s = .next (answer (viewCellData s) s) :=
    congrArg _ (answerUnstable_idle _ hb)
  have hC : exec .rdCountData s = .next (answer (viewCountData s) s) :=
    congrArg _ (answerUnstable_idle _ hb)
  refine ⟨hS, fun h => ⟨?_, ?_⟩, fun h => ⟨?_, ?_⟩⟩
  · rw [hG, viewCellData_of_lt h]; rfl
  · rw [hC, viewCountData_of_lt h]; rfl
  · rw [hG, viewCellData_of_le h]; rfl
  · rw [hC, viewCountData_of_le h]; rfl

/-- Settles O42: the three meanings are `answerUnstable`, which draws a free value while BUSY. -/
theorem unstableReadsWhileBusyStillComplete : Obligations.UnstableReadsWhileBusyStillComplete := by
  intro s hb i hi
  simp only [List.mem_cons, List.not_mem_nil, or_false] at hi
  rcases hi with rfl | rfl | rfl <;> exact ⟨_, congrArg _ (answerUnstable_busy _ hb)⟩

/-! ## SETCELL -/

theorem idx_interior {r c : Nat} (hr1 : 1 ≤ r) (hr : r ≤ H - 2) (hc1 : 1 ≤ c) (hc : c ≤ W - 2) :
    idx r c < N ∧ interior (idx r c) = true := by
  have hcW : c < W := by simp only [W] at *; omega
  have hlt : idx r c < N := idx_lt (by simp only [H] at *; omega) hcW
  refine ⟨hlt, (interior_iff hlt).2 ?_⟩
  rw [row_idx hcW, col_idx hcW]
  exact ⟨⟨hr1, hr⟩, hc1, hc⟩

theorem border_of_interior {i : Nat} (h : interior i = true) : border i = false := by
  simpa [interior_eq_not_border] using h

/-- A step on the word of a well-formed instruction. -/
theorem step_encode {i : Instr} {rest : List Input} (hwf : i.wellFormed = true)
    (h : s.inputs = .host (encode i) :: rest) : step s = exec i (setInputs rest s) := by
  rw [step_host h, decode_encode hwf]

theorem toNat_ofNat_idx {r c : Nat} (h : idx r c < N) : (BitVec.ofNat 16 (idx r c)).toNat = idx r c :=
  (BitVec.toNat_ofNat _ _).trans (Nat.mod_eq_of_lt (by simp only [N, W, H] at h; omega))

/-- `s` with CELL_ADDR at cell (`r`, `c`). -/
def withCellSelected (r c : Nat) (s : State) : State := { s with cellAddr := BitVec.ofNat 16 (idx r c) }

theorem withCellSelected_cellAddr {r c : Nat} (h : idx r c < N) (s : State) :
    (withCellSelected r c s).cellAddr.toNat = idx r c := toNat_ofNat_idx h

/-- The first transaction of SETCELL, GETCELL and GETCOUNT while idle. -/
theorem step_selectCell {r c : Nat} {rest : List Input} (hb : s.busy = false)
    (h : s.inputs = .host (encode (selectCell r c)) :: rest) :
    step s = .next (withCellSelected r c (setInputs rest s)) :=
  (step_encode rfl h).trans (exec_gated_idle (.wrCellAddr _) (s := setInputs rest s) hb)

/-- A write of a legal value to a selected interior cell while idle. -/
theorem step_wrCellData {v : Word} {rest : List Input} (hb : s.busy = false)
    (hlt : s.cellAddr.toNat < N) (hint : interior s.cellAddr.toNat = true)
    (hv : v = 0x0000#16 ∨ v = 0x00FF#16) (h : s.inputs = .host (encode (.wrCellData v)) :: rest) :
    step s = .next (setCell s.cellAddr.toNat (if v = 0x00FF#16 then ALIVE else DEAD)
      (setInputs rest s)) := by
  rw [step_encode rfl h, exec_gated_idle (.wrCellData v) (s := setInputs rest s) hb,
    writeCellData_of_interior v (s := setInputs rest s) hlt (border_of_interior hint), if_pos hv]
  rfl

/-- Settles O58: CELL_ADDR takes the index, and the write of CELL_DATA passes every check there. -/
theorem setCellPseudoSetsOneInteriorCell : Obligations.SetCellPseudoSetsOneInteriorCell := by
  intro s r c a hb hr1 hr hc1 hc hin
  obtain ⟨hlt, hint⟩ := idx_interior hr1 hr hc1 hc
  have hfirst := step_selectCell hb hin
  have haddr := withCellSelected_cellAddr hlt
  have hsecond := step_wrCellData (v := if a = true then 0x00FF#16 else 0x0000#16) (rest := [])
    (s := withCellSelected r c (setInputs [.host (encode (.wrCellData _))] s)) hb (by rwa [haddr])
    (by rwa [haddr]) (by cases a <;> simp) rfl
  refine ⟨_, (run_next hfirst).trans (run_next hsecond), rfl, rfl, haddr s, fun i _ => ?_⟩
  rw [cell_setCell, haddr]
  simp only [hlt, true_and]
  cases a <;> rfl

/-! ## STOP -/

/-- STATUS with STOP_PEND set. -/
theorem statusWord_stopPend (s : State) :
    statusWord { s with stopPend := true } = statusWord s ||| 0x0004#16 := by
  have hbit : 0x0004#16 = 0#9 ++ 0#3 ++ 0#1 ++ 1#1 ++ 0#1 ++ 0#1 := by decide
  have hset (b : Bool) : BitVec.ofBool b ||| 1#1 = 1#1 := by cases b <;> rfl
  rw [hbit, statusWord, statusWord]
  rw [BitVec.or_append, BitVec.or_append, BitVec.or_append, BitVec.or_append, BitVec.or_append, hset,
    BitVec.or_zero, BitVec.or_zero, BitVec.or_zero, BitVec.or_zero, BitVec.or_zero]
  rfl

/-- Settles O37: STOP sets STOP_PEND, and the next RUN step ends the run because of it. -/
theorem stopEndsTheRunAtTheNextEngineStep : Obligations.StopEndsTheRunAtTheNextEngineStep := by
  intro s hb hr ho
  refine ⟨{ s with stopPend := true }, congrArg _ (requestStop_running hr), statusWord_stopPend s, ?_⟩
  rw [engineStep_run (s := { s with stopPend := true }) hb ho, performRunStep_stop rfl]
  rfl

/-! ## Reset and power -/

/-- Settles O59: a stopping run is interrupted as any RUN is. -/
theorem resetDuringAStoppingRunMayKeepWrites : Obligations.ResetDuringAStoppingRunMayKeepWrites := by
  intro s k p rest hb ho _ hk hin
  exact ⟨_, step_reset hin, blockIsReset_hardReset _ _, hardReset_rendering hb (.inr ho) hk⟩

theorem blockIsReset_powerUp (k : Nat) (s : State) : BlockIsReset (powerUp k s) :=
  blockIsReset_hardReset k s

theorem displayByte_powerUp (k off : Nat) (s : State) :
    displayByte (powerUp k s) off = powerUpByte (s.powerUps + 1) off := by
  rw [powerUp_eq]; rfl

/-- The record of display writes after an interruption, by the operation in progress. -/
theorem interrupt_dispTrace {k : Nat} (hk : k ≤ 4000) :
    (interrupt k s).dispTrace =
      (if s.busy = true ∧ (s.op = .render ∨ s.op = .run)
        then ((List.range k).map (renderWrite s.G)).reverse else []) ++ s.dispTrace := by
  split_ifs with h
  · rw [interrupt_rendering h.1 h.2 hk, dispWrites_dispTrace]
  · have hskip : interrupt k s = s := by
      cases hb : s.busy with
      | false => exact interrupt_idle hb
      | true =>
        have ho := not_or.1 fun ho => h ⟨hb, ho⟩
        exact interrupt_not_rendering ho.1 ho.2
    rw [hskip]; rfl

/-- Settles O57: the return of power is a reset that also forgets the display. -/
theorem powerCycleResetsAndForgetsTheDisplay : Obligations.PowerCycleResetsAndForgetsTheDisplay := by
  intro s k rest hk hin
  exact ⟨_, step_powerCycle hin, blockIsReset_powerUp _ _, fun off => displayByte_powerUp k off _,
    (powerUp_dispTrace k _).trans (interrupt_dispTrace (s := setInputs rest s) hk)⟩

end Sys2Proof.Machine
end

section
/-! The engine and the order of its steps: the display after a RENDER (42_renderer.md R184), the step of
each pending operation (10_state.md R30, R52), and the two orders of a transaction and an engine step
(60_exceptions.md R309). -/

namespace Sys2Proof.Machine

open Sys2Proof.Config Sys2Proof.Claims

variable {s t : State}

/-! ## The display after a RENDER -/

/-- A state with the rendered memory of `s` shows the grid of `s`. -/
theorem displayByte_shows_grid (hd : t.display = (renderBody s).display) (hp : t.powerUps = s.powerUps)
    {i : Nat} (hi : i < N) :
    displayByte t (2 * i) = SPACE ∧ displayByte t (2 * i + 1) = cell s.G i := by
  have hi' : i < 2000 := hi
  constructor <;> rw [displayByte_of_rendered hd hp, if_pos (by omega)]
  · exact if_pos (by omega)
  · exact (if_neg (by omega)).trans (by rw [show (2 * i + 1) / 2 = i by omega])

/-- Settles O33: the display memory after RENDER is that of `renderBody`. -/
theorem renderedDisplayEqualsTheGrid : Obligations.RenderedDisplayEqualsTheGrid := by
  intro s hb ho
  have hd : (performRender s).display = (renderBody s).display := by rw [performRender_eq]
  have hp : (performRender s).powerUps = s.powerUps := by rw [performRender_eq]
  refine ⟨_, engineStep_render hb ho, fun i hi => displayByte_shows_grid hd hp hi, fun off hoff => ?_⟩
  rw [displayByte_of_rendered hd hp, if_neg (by omega)]

/-! ## The step of each operation -/

@[simp] theorem countIteration_genCount (s : State) : (countIteration s).genCount = s.genCount := by
  rcases countIteration_cases s with ⟨_, e⟩ | ⟨_, _, e⟩ | ⟨_, _, e⟩ <;> simp [e]

theorem ne_of_finished (hb : s.busy = true) (ht : t.busy = false) : t ≠ s := by
  rintro rfl
  simp [hb] at ht

/-- GEN_COUNT tells a generation from its start, modulo 2^16 too. -/
theorem ne_of_genCount_succ (ht : t.genCount = s.genCount + 1#16) : t ≠ s := by
  rintro rfl
  simp at ht

/-- What the engine's step from `s` does, told by GEN_COUNT and the record of display writes. -/
def StepOfOperation (s t : State) : Prop :=
  t ≠ s ∧
    (s.op ≠ .run → t.op = .none ∧ t.busy = false) ∧
    (s.op = .init ∨ s.op = .clear → t.genCount = 0#16) ∧
    (s.op = .evolve → t.genCount = s.genCount + 1#16) ∧
    (s.op = .render → t.dispTrace.length = s.dispTrace.length + 4000) ∧
    (s.op = .run →
      if s.stopPend = true then
        t.op = .none ∧ t.busy = false ∧ t.genCount = s.genCount ∧ t.dispTrace = s.dispTrace
      else t.genCount = s.genCount + 1#16 ∧ t.dispTrace.length = s.dispTrace.length + 4000)

theorem length_renderWrites (g : Grid) : (renderWrites g).length = 4000 := renderWrites_length g

theorem stepOfOperation_init (hb : s.busy = true) (ho : s.op = .init) :
    StepOfOperation s (performInit s) := by
  rw [performInit_eq]
  exact ⟨ne_of_finished hb rfl, fun _ => ⟨rfl, rfl⟩, by simp [ho]⟩

theorem stepOfOperation_clear (hb : s.busy = true) (ho : s.op = .clear) :
    StepOfOperation s (performClear s) := by
  rw [performClear_eq]
  exact ⟨ne_of_finished hb rfl, fun _ => ⟨rfl, rfl⟩, by simp [ho]⟩

theorem stepOfOperation_evolve (hb : s.busy = true) (ho : s.op = .evolve) :
    StepOfOperation s (performEvolve s) := by
  rw [performEvolve_eq]
  exact ⟨ne_of_finished hb rfl, fun _ => ⟨rfl, rfl⟩, by simp [ho]⟩

theorem stepOfOperation_render (hb : s.busy = true) (ho : s.op = .render) :
    StepOfOperation s (performRender s) := by
  rw [performRender_eq]
  exact ⟨ne_of_finished hb rfl, fun _ => ⟨rfl, rfl⟩, by simp [ho, length_renderWrites, Nat.add_comm]⟩

theorem stepOfOperation_run (hb : s.busy = true) (ho : s.op = .run) :
    StepOfOperation s (performRunStep s) := by
  cases hs : s.stopPend with
  | true =>
    rw [performRunStep_stop hs]
    exact ⟨ne_of_finished hb rfl, by simp [ho, hs]⟩
  | false =>
    rw [performRunStep_iterate hs]
    exact ⟨ne_of_genCount_succ (by simp), by simp [ho, hs, length_renderWrites, Nat.add_comm]⟩

/-- With an operation pending the engine's step performs it. -/
theorem engineStep_of_pending (hb : s.busy = true) (ho : s.op ≠ .none) :
    ∃ t, engineStep s = .next t ∧ StepOfOperation s t := by
  rcases engineStep_cases s with
    ⟨hidle, _⟩ | ⟨_, hnone, _⟩ | ⟨_, hop, e⟩ | ⟨_, hop, e⟩ | ⟨_, hop, e⟩ | ⟨_, hop, e⟩ | ⟨_, hop, e⟩
  · simp [hb] at hidle
  · exact absurd hnone ho
  · exact ⟨_, e, stepOfOperation_init hb hop⟩
  · exact ⟨_, e, stepOfOperation_clear hb hop⟩
  · exact ⟨_, e, stepOfOperation_evolve hb hop⟩
  · exact ⟨_, e, stepOfOperation_render hb hop⟩
  · exact ⟨_, e, stepOfOperation_run hb hop⟩

/-- Settles O6: `engineStep_of_pending`, and the two inputs at which the engine moves. -/
theorem engineMovesExactlyWhileBusy : Obligations.EngineMovesExactlyWhileBusy := fun _ =>
  ⟨engineStep_idle, engineStep_of_pending, step_nil, fun _ h => step_idle h⟩

/-! ## The order of host and engine -/

/-- The engine's step does the same beside any inputs, and leaves them. -/
theorem engineStep_setInputs (l : List Input) (h : engineStep s = .next t) :
    engineStep (setInputs l s) = .next (setInputs l t) := by
  have hside : setInputs l t = withHostSide t (setInputs l s) :=
    congrArg (setInputs l) (engineStep_eq_withHostSide h)
  rw [hside]
  exact engineStep_withHostSide (setInputs l s) h

/-- With a transaction as the only input, its effect and then the engine's step. -/
theorem run_host_engine {u v : State} {w : Transaction} (hin : s.inputs = [.host w])
    (hu : exec (decode w) (setInputs [] s) = .next u) (hv : engineStep u = .next v) :
    core.run 2 s = .next v := by
  have hnil : u.inputs = [] := exec_inputs hu
  rw [run_next ((step_host hin).trans hu), run_next ((step_nil hnil).trans hv), run_zero]

/-- With an idle input before a transaction, the engine's step and then the transaction's effect. -/
theorem run_engine_host {u v : State} {w : Transaction} (hin : s.inputs = [.idle, .host w])
    (hu : engineStep (setInputs [] s) = .next u) (hv : exec (decode w) u = .next v) :
    core.run 2 s = .next v := by
  have hfirst : step s = .next (setInputs [.host w] u) :=
    (step_idle hin).trans (engineStep_setInputs (s := setInputs [] s) [.host w] hu)
  have hnil : setInputs [] (setInputs [.host w] u) = u := by
    change setInputs [] u = u
    rw [engineStep_eq_withHostSide hu]; rfl
  have hsecond : step (setInputs [.host w] u) = .next v := by
    rw [step_host (rest := []) rfl, hnil, hv]
  rw [run_next hfirst, run_next hsecond, run_zero]

/-- HZ-1 without an engine step between: EVOLVE is rejected. -/
theorem run_init_evolve (hb : s.busy = false) (hin : s.inputs = [.host 0x80001#20, .host 0x80003#20]) :
    ∃ t, core.run 2 s = .next t ∧ t.op = .init ∧ t.err = true := by
  have hfirst : step s = .next (acceptOp .init (setInputs [.host 0x80003#20] s)) := by
    rw [step_host hin, show decode 0x80001#20 = .init by decide]
    exact exec_gated_idle .init hb
  have hsecond := step_host (s := acceptOp .init (setInputs [.host 0x80003#20] s)) (rest := []) rfl
  rw [show decode 0x80003#20 = .evolve by decide, exec_gated_rejected .evolve rfl] at hsecond
  exact ⟨_, (run_next hfirst).trans (run_next hsecond), rfl, rfl⟩

/-- HZ-1 with an engine step between: EVOLVE is accepted. -/
theorem run_init_engine_evolve (hb : s.busy = false)
    (hin : s.inputs = [.host 0x80001#20, .idle, .host 0x80003#20]) :
    ∃ t, core.run 3 s = .next t ∧ t.op = .evolve ∧ t.err = s.err := by
  have hfirst : step s = .next (acceptOp .init (setInputs [.idle, .host 0x80003#20] s)) := by
    rw [step_host hin, show decode 0x80001#20 = .init by decide]
    exact exec_gated_idle .init hb
  obtain ⟨u, hu⟩ : ∃ u, engineStep (acceptOp .init (setInputs [] s)) = .next u :=
    engineStep_next_of_pending (by simp)
  obtain ⟨hidle, _⟩ : u.busy = false ∧ u.op = .none := by
    obtain ⟨u', hu', _, hover, _⟩ :=
      engineStep_of_pending (s := acceptOp .init (setInputs [] s)) rfl (by simp)
    obtain rfl := Host.Outcome.next.inj (hu'.symm.trans hu)
    exact (hover (by simp)).symm
  have hevolve : exec (decode 0x80003#20) u = .next (acceptOp .evolve u) := by
    rw [show decode 0x80003#20 = .evolve by decide]
    exact exec_gated_idle .evolve hidle
  refine ⟨_, (run_next hfirst).trans (run_engine_host rfl hu hevolve), rfl, ?_⟩
  exact (engineStep_keepsError hu).1

/-- Settles O7: the two orders are the two lists of inputs, and INIT then EVOLVE is the spec's example. -/
theorem bothOrdersOfHostAndEngineAreAdmitted : Obligations.BothOrdersOfHostAndEngineAreAdmitted := by
  refine ⟨fun s w hb ho => ⟨?_, ?_⟩, fun s hb => ⟨run_init_evolve hb rfl, ?_⟩⟩
  · obtain ⟨u, hu⟩ := exec_next (decode w) (setInputs [] s)
    have hop : u.op ≠ .none := by rwa [exec_op_of_busy hu hb]
    obtain ⟨v, hv⟩ := engineStep_next_of_pending hop
    exact ⟨u, v, hu, hv, run_host_engine rfl hu hv⟩
  · obtain ⟨u, hu⟩ := engineStep_next_of_pending (s := setInputs [] s) ho
    obtain ⟨v, hv⟩ := exec_next (decode w) u
    exact ⟨u, v, hu, hv, run_engine_host rfl hu hv⟩
  · exact run_init_engine_evolve (s := setInputs [.host 0x80001#20, .idle, .host 0x80003#20] s) hb rfl

end Sys2Proof.Machine
end

section
/-! Generations (43_evolver.md): the rule's table (R204), the separate buffer (R207), the order of the cells
(R210), and the patterns of R214. -/

namespace Sys2Proof.Machine

open Sys2Proof.Config Sys2Proof.Claims

variable {s t : State} {g : Grid} {i : Nat}

/-! ## The rule -/

/-- The rule's equivalent form (R204). -/
theorem rule_eq_alive_iff (b : Byte) (n : Nat) : rule b n = ALIVE ↔ n = 3 ∨ b = ALIVE ∧ n = 2 := by
  have hne : DEAD ≠ ALIVE := by decide
  unfold rule
  split_ifs with hb hn hn
  · simp [hb, hn.symm]
  · simp only [not_or] at hn
    simp [hne, hn]
  · simp [hn]
  · simp [hne, hb, hn]

/-- Settles O25: the table is closed, and the equivalent form is `rule_eq_alive_iff`. -/
theorem cellRuleIsTheTable : Obligations.CellRuleIsTheTable :=
  ⟨by decide, by decide, rule_eq_alive_iff⟩

/-! ## The separate buffer -/

theorem cell_bufferedGeneration (g : Grid) (hi : i < N) :
    cell (bufferedGeneration g) i =
      if interior i = true then rule (cell g i) (ncount g i) else cell g i := by
  unfold bufferedGeneration
  exact cell_ofFn _ i hi

theorem evolveBody_G (s : State) : (evolveBody s).G = bufferedGeneration s.G :=
  grid_ext fun _ hi => (evolveBody_cell s hi).trans (cell_bufferedGeneration s.G hi).symm

theorem performEvolve_G (s : State) : (performEvolve s).G = bufferedGeneration s.G := by
  rw [performEvolve_eq, evolveBody_G]

/-- EVOLVE answers the next generation. -/
theorem engineStep_evolve_G (hb : s.busy = true) (ho : s.op = .evolve) :
    ∃ t, engineStep s = .next t ∧ t.G = bufferedGeneration s.G :=
  ⟨_, engineStep_evolve hb ho, performEvolve_G s⟩

/-- Settles O26: both grids have the same cells. -/
theorem inPlaceApplyEqualsASeparateBuffer : Obligations.InPlaceApplyEqualsASeparateBuffer :=
  fun _ hb ho => engineStep_evolve_G hb ho

/-! ## The order of the cells -/

/-- The count phase over any list of cells that holds the interior (R210). -/
theorem countFold_eq_countPhase {l : List Nat} (hl : ∀ i ∈ l, i < N)
    (hint : ∀ i, i < N → interior i = true → i ∈ l) (s : State) : l.foldl countCell s = countPhase s := by
  obtain ⟨hcount, hframe⟩ := countFold l s hl
  have hC : (l.foldl countCell s).C = (countPhase s).C := counts_ext fun i hi => by
    rw [hcount i, countPhase_count s hi]
    exact if_congr ⟨And.right, fun h => ⟨hint i hi h, h⟩⟩ rfl rfl
  rw [hframe, hC]
  exact (countPhase_frame s).symm

/-- The apply phase over any list of different cells that holds the interior (R210). -/
theorem applyFold_eq_applyPhase {l : List Nat} (hl : ∀ i ∈ l, i < N) (hd : l.Nodup)
    (hint : ∀ i, i < N → interior i = true → i ∈ l) (s : State) : l.foldl applyCell s = applyPhase s := by
  obtain ⟨hcell, hframe⟩ := applyFold l s hl hd
  have hG : (l.foldl applyCell s).G = (applyPhase s).G := grid_ext fun i hi => by
    rw [hcell i, applyPhase_cell s hi]
    exact if_congr ⟨And.right, fun h => ⟨hint i hi h, h⟩⟩ rfl rfl
  rw [hframe, hG]
  exact (applyPhase_frame s).symm

/-- Settles O27: a permutation of the cells holds every cell once. -/
theorem phaseResultsDoNotDependOnCellOrder : Obligations.PhaseResultsDoNotDependOnCellOrder := by
  intro s l hperm
  have hl : ∀ i ∈ l, i < N := fun i hi => List.mem_range.1 (hperm.mem_iff.1 hi)
  have hmem : ∀ i, i < N → interior i = true → i ∈ l := fun i hi _ =>
    hperm.mem_iff.2 (List.mem_range.2 hi)
  exact ⟨countFold_eq_countPhase hl hmem s,
    applyFold_eq_applyPhase hl (hperm.nodup_iff.2 List.nodup_range) hmem s⟩

/-! ## Underpopulation and birth -/

theorem rule_alive_zero : rule ALIVE 0 = DEAD := by decide

theorem rule_dead_three : rule DEAD 3 = ALIVE := by decide

/-- Settles O31: the rule at a count of 0 and of 3. -/
theorem isolatedCellDiesAndThreeNeighboursGiveBirth :
    Obligations.IsolatedCellDiesAndThreeNeighboursGiveBirth := by
  intro s i hb ho hi hint
  have hcell : cell (performEvolve s).G i = rule (cell s.G i) (neighbourSum s.G i) := by
    rw [performEvolve_eq, evolveBody_cell_of_interior s hi hint]
  refine ⟨_, engineStep_evolve hb ho, fun halive hsum => ?_, fun hdead hsum => ?_⟩
  · rw [hcell, halive, hsum, rule_alive_zero]
  · rw [hcell, hdead, hsum, rule_dead_three]

/-! ## Patterns

A pattern is a list of offsets from one cell. The offsets are differences of cell indices, as the
reference FSM's `neighbourOffsets` are, so a cell at offset `d` has a neighbour at offset `d + n`. -/

/-- The cells of a pattern at cell `p`. -/
def patternCells (p : Nat) (ds : List Int) : List Nat := ds.map fun d => ((p : Int) + d).toNat

/-- How many neighbours of the cell at offset `d` belong to the pattern. -/
def patternCount (ds : List Int) (d : Int) : Nat := neighbourOffsets.countP fun n => decide (d + n ∈ ds)

/-- The pattern `ds` becomes `ds'` in a generation, by the rule's equivalent form. -/
def Becomes (ds ds' : List Int) : Prop :=
  ∀ d : Int, d ∈ ds' ↔ patternCount ds d = 3 ∨ d ∈ ds ∧ patternCount ds d = 2

/-- The neighbours of an interior cell by their offsets (R209). -/
theorem neighbours_eq_map_offsets (hi : i < N) (hint : interior i = true) :
    neighbours i = neighbourOffsets.map fun n => ((i : Int) + n).toNat := by
  obtain ⟨⟨hr1, hr⟩, hc1, hc⟩ := (interior_iff hi).1 hint
  have hidx : col i + row i * 80 = i := idx_row_col i
  simp only [neighbours, neighbourOffsets, idx, W, H, List.map_cons, List.map_nil, List.cons.injEq,
    and_true] at *
  omega

/-- The cells of a pattern are interior. -/
def PatternInside (p : Nat) (ds : List Int) : Prop :=
  ∀ d ∈ ds, ∃ j : Nat, (j : Int) = p + d ∧ j < N ∧ interior j = true

theorem mem_patternCells {p : Nat} {ds : List Int} (hin : PatternInside p ds) :
    i ∈ patternCells p ds ↔ (i : Int) - p ∈ ds := by
  constructor
  · intro h
    obtain ⟨d, hd, rfl⟩ := List.mem_map.1 h
    obtain ⟨j, hj, _⟩ := hin d hd
    rwa [show (((p : Int) + d).toNat : Int) - p = d by omega]
  · exact fun h => List.mem_map.2 ⟨_, h, by omega⟩

theorem interior_of_mem_patternCells {p : Nat} {ds : List Int} (hin : PatternInside p ds)
    (h : i ∈ patternCells p ds) : interior i = true := by
  obtain ⟨j, hj, _, hint⟩ := hin _ ((mem_patternCells hin).1 h)
  rwa [show i = j by omega]

theorem offset_bounds : ∀ n ∈ neighbourOffsets, -81 ≤ n ∧ n ≤ 81 := by decide

/-- The neighbour at an offset of an interior cell lies in the grid. -/
theorem exists_neighbour (hi : i < N) (hint : interior i = true) {n : Int} (hn : n ∈ neighbourOffsets) :
    ∃ j : Nat, (j : Int) = i + n ∧ j < N := by
  obtain ⟨⟨hr1, hr⟩, hc1, hc⟩ := (interior_iff hi).1 hint
  have hidx : col i + row i * 80 = i := idx_row_col i
  have hbound := offset_bounds n hn
  simp only [N, W, H] at *
  exact ⟨((i : Int) + n).toNat, by omega, by omega⟩

theorem aliveExactly_iff {l : List Nat} (hg : AliveExactly g l) (hi : i < N) :
    cell g i = ALIVE ↔ i ∈ l := by
  have hne : DEAD ≠ ALIVE := by decide
  rw [hg i hi]
  by_cases h : i ∈ l <;> simp [h, hne]

/-- The neighbour count of an interior cell when the pattern alone is ALIVE. -/
theorem ncount_of_pattern {p : Nat} {ds : List Int} (hin : PatternInside p ds)
    (hg : AliveExactly g (patternCells p ds)) (hi : i < N) (hint : interior i = true) :
    ncount g i = patternCount ds ((i : Int) - p) := by
  rw [ncount, neighbours_eq_map_offsets hi hint, List.countP_map, patternCount]
  refine List.countP_congr fun n hn => ?_
  obtain ⟨j, hj, hjN⟩ := exists_neighbour hi hint hn
  have hmem : j ∈ patternCells p ds ↔ (i : Int) - p + n ∈ ds := by
    rw [mem_patternCells hin, show (j : Int) - p = (i : Int) - p + n by omega]
  rw [Function.comp_apply, ← hj, Int.toNat_natCast, beq_iff_eq, aliveExactly_iff hg hjN, hmem,
    decide_eq_true_iff]

theorem rule_eq_ite (b : Byte) (n : Nat) [Decidable (n = 3 ∨ b = ALIVE ∧ n = 2)] :
    rule b n = if n = 3 ∨ b = ALIVE ∧ n = 2 then ALIVE else DEAD := by
  split_ifs with h
  · exact (rule_eq_alive_iff b n).2 h
  · exact (rule_two_valued b n).resolve_right (mt (rule_eq_alive_iff b n).1 h)

/-- A generation takes a pattern alone in the grid to the pattern it becomes, alone in the grid. -/
theorem aliveExactly_bufferedGeneration {p : Nat} {ds ds' : List Int} (hb : Becomes ds ds')
    (hin : PatternInside p ds) (hin' : PatternInside p ds') (hg : AliveExactly g (patternCells p ds)) :
    AliveExactly (bufferedGeneration g) (patternCells p ds') := by
  intro i hi
  rw [cell_bufferedGeneration g hi]
  by_cases hint : interior i = true
  · have halive : cell g i = ALIVE ↔ (i : Int) - p ∈ ds :=
      (aliveExactly_iff hg hi).trans (mem_patternCells hin)
    rw [if_pos hint, rule_eq_ite, ncount_of_pattern hin hg hi hint]
    exact if_congr (by rw [halive, mem_patternCells hin', hb]) rfl rfl
  · rw [if_neg hint, hg i hi, if_neg (mt (interior_of_mem_patternCells hin) hint),
      if_neg (mt (interior_of_mem_patternCells hin') hint)]

/-- A cell with a neighbour in the pattern lies at an offset `e - n`, and a cell without one is not in the
next pattern. -/
theorem becomes_of_neighbours {ds ds' : List Int} (hcount : ∀ d ∈ ds', patternCount ds d ≠ 0)
    (hnear : ∀ e ∈ ds, ∀ n ∈ neighbourOffsets, (e - n ∈ ds' ↔
      patternCount ds (e - n) = 3 ∨ e - n ∈ ds ∧ patternCount ds (e - n) = 2)) :
    Becomes ds ds' := by
  intro d
  by_cases hzero : patternCount ds d = 0
  · have hnot : d ∉ ds' := fun h => hcount d h hzero
    simp [hzero, hnot]
  · obtain ⟨n, hn, hmem⟩ := List.countP_pos_iff.1 (Nat.pos_of_ne_zero hzero)
    have h := hnear (d + n) (by simpa using hmem) n hn
    rwa [Int.add_sub_cancel] at h

/-! ## Block and blinker -/

/-- The offsets of a 2×2 block from its upper left cell. -/
def blockOffsets : List Int := [0, 1, 80, 81]

/-- The offsets of the horizontal blinker from its centre. -/
def rowOffsets : List Int := [-1, 0, 1]

/-- The offsets of the vertical blinker from its centre. -/
def columnOffsets : List Int := [-80, 0, 80]

theorem block_becomes_block : Becomes blockOffsets blockOffsets :=
  becomes_of_neighbours (by decide) (by decide)

theorem row_becomes_column : Becomes rowOffsets columnOffsets :=
  becomes_of_neighbours (by decide) (by decide)

theorem column_becomes_row : Becomes columnOffsets rowOffsets :=
  becomes_of_neighbours (by decide) (by decide)

/-- Two grids with the same pattern alone in them are equal. -/
theorem grid_eq_of_aliveExactly {g' : Grid} {l : List Nat} (h : AliveExactly g l)
    (h' : AliveExactly g' l) : g = g' :=
  grid_ext fun i hi => (h i hi).trans (h' i hi).symm

/-- A pattern is inside when each of its cells is some interior (row, column). -/
theorem patternInside_of_idx {p : Nat} {ds : List Int}
    (h : ∀ d ∈ ds, ∃ r c, (idx r c : Int) = p + d ∧ 1 ≤ r ∧ r ≤ H - 2 ∧ 1 ≤ c ∧ c ≤ W - 2) :
    PatternInside p ds := by
  intro d hd
  obtain ⟨r, c, hp, hr1, hr, hc1, hc⟩ := h d hd
  exact ⟨idx r c, hp, idx_interior hr1 hr hc1 hc⟩

section

variable {r c : Nat}

theorem block_inside (hr1 : 1 ≤ r) (hr : r + 1 ≤ H - 2) (hc1 : 1 ≤ c) (hc : c + 1 ≤ W - 2) :
    PatternInside (idx r c) blockOffsets := by
  apply patternInside_of_idx
  simp only [blockOffsets, List.forall_mem_cons, List.not_mem_nil, false_implies, implies_true, idx, W,
    H] at *
  exact ⟨⟨r, c, by omega⟩, ⟨r, c + 1, by omega⟩, ⟨r + 1, c, by omega⟩, ⟨r + 1, c + 1, by omega⟩, trivial⟩

theorem row_inside (hr1 : 2 ≤ r) (hr : r ≤ H - 3) (hc1 : 2 ≤ c) (hc : c ≤ W - 3) :
    PatternInside (idx r c) rowOffsets := by
  apply patternInside_of_idx
  simp only [rowOffsets, List.forall_mem_cons, List.not_mem_nil, false_implies, implies_true, idx, W,
    H] at *
  exact ⟨⟨r, c - 1, by omega⟩, ⟨r, c, by omega⟩, ⟨r, c + 1, by omega⟩, trivial⟩

theorem column_inside (hr1 : 2 ≤ r) (hr : r ≤ H - 3) (hc1 : 2 ≤ c) (hc : c ≤ W - 3) :
    PatternInside (idx r c) columnOffsets := by
  apply patternInside_of_idx
  simp only [columnOffsets, List.forall_mem_cons, List.not_mem_nil, false_implies, implies_true, idx, W,
    H] at *
  exact ⟨⟨r - 1, c, by omega⟩, ⟨r, c, by omega⟩, ⟨r + 1, c, by omega⟩, trivial⟩

theorem blockCells_eq (r c : Nat) :
    [idx r c, idx r (c + 1), idx (r + 1) c, idx (r + 1) (c + 1)] = patternCells (idx r c) blockOffsets := by
  simp only [patternCells, blockOffsets, List.map_cons, List.map_nil, List.cons.injEq, idx, W, and_true]
  omega

theorem rowCells_eq (hc1 : 2 ≤ c) :
    [idx r (c - 1), idx r c, idx r (c + 1)] = patternCells (idx r c) rowOffsets := by
  simp only [patternCells, rowOffsets, List.map_cons, List.map_nil, List.cons.injEq, idx, W, and_true]
  omega

theorem columnCells_eq (hr1 : 2 ≤ r) :
    [idx (r - 1) c, idx r c, idx (r + 1) c] = patternCells (idx r c) columnOffsets := by
  simp only [patternCells, columnOffsets, List.map_cons, List.map_nil, List.cons.injEq, idx, W, and_true]
  omega

end

/-- Settles O29: a block becomes itself. -/
theorem blockIsAStillLife : Obligations.BlockIsAStillLife := by
  intro s r c hb ho hr1 hr hc1 hc hg
  rw [blockCells_eq] at hg
  have hin := block_inside hr1 hr hc1 hc
  refine ⟨_, engineStep_evolve hb ho, ?_⟩
  rw [performEvolve_G]
  exact grid_eq_of_aliveExactly (aliveExactly_bufferedGeneration block_becomes_block hin hin hg) hg

/-- Settles O30: the row becomes the column, and the column the row. -/
theorem blinkerHasPeriodTwo : Obligations.BlinkerHasPeriodTwo := by
  intro s r c hb ho hr1 hr hc1 hc hg
  rw [rowCells_eq hc1] at hg
  have hrow := row_inside hr1 hr hc1 hc
  have hcol := column_inside hr1 hr hc1 hc
  obtain ⟨t, ht, htG⟩ := engineStep_evolve_G hb ho
  obtain ⟨u, hu, huG⟩ := engineStep_evolve_G (s := acceptOp .evolve t) rfl rfl
  have hvert : AliveExactly t.G (patternCells (idx r c) columnOffsets) :=
    htG ▸ aliveExactly_bufferedGeneration row_becomes_column hrow hcol hg
  have hback : AliveExactly u.G (patternCells (idx r c) rowOffsets) :=
    huG ▸ aliveExactly_bufferedGeneration column_becomes_row hcol hrow hvert
  exact ⟨t, u, ht, columnCells_eq hr1 ▸ hvert, hu, grid_eq_of_aliveExactly hback hg⟩

end Sys2Proof.Machine
end

section
/-! Whole runs (44_mainloop.md R242, R243, R247) and progress (70_reset_and_hazards.md R353): what each
iteration does, by induction on the number of iterations. -/

namespace Sys2Proof.Machine

open Sys2Proof.Config Sys2Proof.Claims

variable {s t u : State} {n : Nat}

/-! ## Runs of the machine, from their last step -/

theorem run_snoc (h : core.run n s = .next t) (ht : step t = .next u) :
    core.run (n + 1) s = .next u := by
  induction n generalizing s with
  | zero =>
    obtain rfl := Host.Outcome.next.inj h
    exact (run_next ht).trans (run_zero u)
  | succ n ih =>
    cases hs : step s with
    | next s' =>
      rw [run_next hs] at h ⊢
      exact ih h
    | fault r =>
      have hc : core.step s = .fault r := hs
      simp [Host.Core.run, hc] at h
    | refused r =>
      have hc : core.step s = .refused r := hs
      simp [Host.Core.run, hc] at h

/-! ## What iterations do -/

/-- `t` is `n` generations after `s`, each rendered before it evolved, and of the rest only the display and
the state of the run may differ. -/
structure Generations (s : State) (n : Nat) (t : State) : Prop where
  G : t.G = bufferedGeneration^[n] s.G
  genCount : t.genCount = s.genCount + BitVec.ofNat 16 n
  dispTrace : t.dispTrace = runTrace s.G n ++ s.dispTrace
  genLimit : t.genLimit = s.genLimit
  S : t.S = s.S
  cellAddr : t.cellAddr = s.cellAddr
  err : t.err = s.err
  errcode : t.errcode = s.errcode
  hRdata : t.hRdata = s.hRdata

theorem generations_zero (s : State) : Generations s 0 s where
  G := rfl
  genCount := (BitVec.add_zero _).symm
  dispTrace := rfl
  genLimit := rfl
  S := rfl
  cellAddr := rfl
  err := rfl
  errcode := rfl
  hRdata := rfl

/-- One iteration more (R242). -/
theorem Generations.succ (h : Generations s n t) : Generations s (n + 1) (evolveBody (renderBody t)) where
  G := by rw [evolveBody_G, renderBody_G, h.G, Function.iterate_succ_apply']
  genCount := by
    rw [evolveBody_genCount, renderBody_genCount, h.genCount, BitVec.ofNat_add, BitVec.add_assoc]
  dispTrace := by
    rw [evolveBody_dispTrace, renderBody_dispTrace, h.dispTrace, h.G, ← List.append_assoc]
    rfl
  genLimit := by simp [h.genLimit]
  S := by simp [h.S]
  cellAddr := by simp [h.cellAddr]
  err := by simp [h.err]
  errcode := by simp [h.errcode]
  hRdata := by simp [h.hRdata]

/-- The end of an iteration touches the state of the run only. -/
theorem Generations.countIteration (h : Generations s n t) : Generations s n (countIteration t) := by
  rcases countIteration_cases t with ⟨_, e⟩ | ⟨_, _, e⟩ | ⟨_, _, e⟩ <;> rw [e]
  · exact h
  · exact { h with }
  · exact { h with }

/-! ## The state of a run -/

/-- A run is in progress, without a STOP and with no input left. -/
structure Running (s : State) : Prop where
  inputs : s.inputs = []
  busy : s.busy = true
  running : s.running = true
  op : s.op = .run
  stopPend : s.stopPend = false

theorem Running.iterate (h : Running s) : Running (evolveBody (renderBody s)) where
  inputs := by simp [h.inputs]
  busy := by simp [h.busy]
  running := by simp [h.running]
  op := by simp [h.op]
  stopPend := by simp [h.stopPend]

theorem Running.step_eq (h : Running s) :
    step s = .next (countIteration (evolveBody (renderBody s))) := by
  rw [step_nil h.inputs, engineStep_run h.busy h.op, performRunStep_iterate h.stopPend]

/-- The word RUN as the only input, while idle. -/
theorem step_run_word (hb : s.busy = false) (hin : s.inputs = [.host 0x80005#20]) :
    step s = .next (acceptRun (setInputs [] s)) := by
  rw [step_host hin, show decode 0x80005#20 = .run by decide]
  exact exec_gated_idle .run hb

theorem running_acceptRun (s : State) : Running (acceptRun (setInputs [] s)) := ⟨rfl, rfl, rfl, rfl, rfl⟩

theorem generations_acceptRun (s : State) : Generations s 0 (acceptRun (setInputs [] s)) :=
  { generations_zero s with }

theorem iteration_powerUps (s : State) : (evolveBody (renderBody s)).powerUps = s.powerUps := by simp

/-! ## Unbounded runs -/

theorem run_unbounded (h : Running u) (hinf : u.runInf = true) (hg : Generations s 0 u) (n : Nat) :
    ∃ t : State, core.run n u = .next t ∧ Running t ∧ t.runInf = true ∧ Generations s n t := by
  induction n with
  | zero => exact ⟨u, run_zero u, h, hinf, hg⟩
  | succ n ih =>
    obtain ⟨t, hrun, ht, htinf, hgen⟩ := ih
    have hinf' : (evolveBody (renderBody t)).runInf = true := by simp [htinf]
    have hsame : countIteration (evolveBody (renderBody t)) = evolveBody (renderBody t) := if_pos hinf'
    exact ⟨_, run_snoc hrun (hsame ▸ ht.step_eq), ht.iterate, hinf', hgen.succ⟩

/-- Settles O36: `run_unbounded` from the state in which RUN has been accepted. -/
theorem unboundedRunRendersEveryGeneration : Obligations.UnboundedRunRendersEveryGeneration := by
  intro s n hb hlimit hin
  obtain ⟨t, hrun, ht, _, hgen⟩ :=
    run_unbounded (running_acceptRun s) (beq_iff_eq.2 hlimit) (generations_acceptRun s) n
  refine ⟨t, ?_, ht.busy, ht.running, hgen.G, hgen.genCount, hgen.dispTrace⟩
  rw [Nat.add_comm, run_next (step_run_word hb hin), hrun]

/-! ## Bounded runs -/

/-- A bounded run with `k` iterations left. -/
structure Left (k : Nat) (s : State) : Prop where
  run : Running s
  bounded : s.runInf = false
  left : s.runLeft.toNat = k

theorem toNat_sub_one {w : Word} {k : Nat} (h : w.toNat = k + 1) : (w - 1#16).toNat = k := by
  rw [BitVec.toNat_sub_of_le (by rw [BitVec.le_def, h]; exact Nat.le_add_left 1 k), h]
  rfl

theorem left_countIteration {k : Nat} (h : Running s) (hinf : s.runInf = false)
    (hleft : (s.runLeft - 1#16).toNat = k + 1) : Left (k + 1) (countIteration s) := by
  rcases countIteration_cases s with ⟨hinf', _⟩ | ⟨_, _, e⟩ | ⟨_, h0, _⟩
  · simp [hinf'] at hinf
  · rw [e]
    exact ⟨{ h with }, hinf, hleft⟩
  · simp [h0] at hleft

/-- An iteration that is not the last leaves one fewer (R242). -/
theorem Left.step_next {k : Nat} (h : Left (k + 2) s) :
    Left (k + 1) (countIteration (evolveBody (renderBody s))) :=
  left_countIteration h.run.iterate (by simp [h.bounded]) (toNat_sub_one (by simp [h.left]))

/-- The end of a bounded run after its last iteration (R243). -/
def runOver (s : State) : State := endRun { s with runLeft := 0#16 }

@[simp] theorem runOver_busy (s : State) : (runOver s).busy = false := (rfl)

@[simp] theorem runOver_running (s : State) : (runOver s).running = false := (rfl)

@[simp] theorem runOver_stopPend (s : State) : (runOver s).stopPend = false := (rfl)

@[simp] theorem runOver_op (s : State) : (runOver s).op = .none := (rfl)

theorem displayByte_runOver (s : State) (off : Nat) : displayByte (runOver s) off = displayByte s off :=
  (rfl)

theorem Generations.runOver (h : Generations s n t) : Generations s n (runOver t) := { h with }

/-- The last iteration ends the run (R243). -/
theorem Left.step_last (h : Left 1 s) :
    step s = .next (runOver (evolveBody (renderBody s))) := by
  have hinf : (evolveBody (renderBody s)).runInf = false := by simp [h.bounded]
  have hleft : (evolveBody (renderBody s)).runLeft - 1#16 = 0#16 :=
    BitVec.eq_of_toNat_eq (toNat_sub_one (by simp [h.left]))
  have hnot : ¬ (evolveBody (renderBody s)).runInf = true := by rw [hinf]; decide
  rw [h.run.step_eq, countIteration, if_neg hnot, if_pos hleft, runOver]

theorem run_bounded {k n : Nat} (h : Left (n + 1 + k) u) (hg : Generations s 0 u) :
    ∃ t : State, core.run k u = .next t ∧ Left (n + 1) t ∧ Generations s k t := by
  induction k generalizing n with
  | zero => exact ⟨u, run_zero u, h, hg⟩
  | succ k ih =>
    obtain ⟨t, hrun, hleft, hgen⟩ := ih (n := n + 1) (by rwa [Nat.add_right_comm (n + 1) 1 k])
    exact ⟨_, run_snoc hrun hleft.run.step_eq, hleft.step_next, hgen.succ.countIteration⟩

/-- A bounded run comes to its last iteration, and that ends it. -/
theorem run_bounded_ends {k : Nat} (h : Left (k + 1) u) (hg : Generations s 0 u) :
    ∃ t : State, core.run k u = .next t ∧ Generations s k t ∧
      core.run (k + 1) u = .next (runOver (evolveBody (renderBody t))) := by
  obtain ⟨t, hrun, hleft, hgen⟩ := run_bounded (n := 0) (k := k) (by rwa [Nat.add_comm] at h) hg
  exact ⟨t, hrun, hgen, run_snoc hrun hleft.step_last⟩

/-- RUN with GEN_LIMIT > 0 starts with GEN_LIMIT iterations left (R241). -/
theorem left_acceptRun (h : s.genLimit ≠ 0#16) :
    Left s.genLimit.toNat (acceptRun (setInputs [] s)) :=
  ⟨running_acceptRun s, beq_eq_false_iff_ne.2 h, rfl⟩

theorem exists_toNat_eq_succ {w : Word} (h : w ≠ 0#16) : ∃ k, w.toNat = k + 1 :=
  Nat.exists_eq_succ_of_ne_zero fun h0 => h (BitVec.eq_of_toNat_eq h0)

/-- Settles O35: `run_bounded` up to the last iteration, and `run_bounded_ends`. -/
theorem boundedRunPerformsGenLimitIterations : Obligations.BoundedRunPerformsGenLimitIterations := by
  intro s hb hlimit hin
  have hleft := left_acceptRun hlimit
  have hg := generations_acceptRun s
  have hfirst := step_run_word hb hin
  refine ⟨fun k hk => ?_, ?_⟩
  · obtain ⟨n, hn⟩ := Nat.exists_eq_add_of_lt hk
    rw [show s.genLimit.toNat = n + 1 + k by omega] at hleft
    obtain ⟨t, hrun, ht, _⟩ := run_bounded hleft hg
    exact ⟨t, by rw [Nat.add_comm, run_next hfirst, hrun], ht.run.busy⟩
  · obtain ⟨m, hm⟩ := exists_toNat_eq_succ hlimit
    have hcount : s.genLimit = BitVec.ofNat 16 (m + 1) := by
      rw [← hm, BitVec.ofNat_toNat, BitVec.setWidth_eq]
    rw [hm] at hleft ⊢
    obtain ⟨x, _, hgen, hend⟩ := run_bounded_ends hleft hg
    have hover := hgen.succ.runOver
    refine ⟨_, ?_, runOver_busy _, runOver_running _, runOver_stopPend _, runOver_op _, hover.G, ?_,
      hover.genLimit, hover.S, hover.cellAddr, hover.err, hover.errcode, hover.hRdata, hover.dispTrace,
      fun i hi => ?_⟩
    · rw [Nat.add_comm, run_next hfirst, hend]
    · rw [hcount]
      exact hover.genCount
    · simp only [displayByte_runOver, Nat.add_sub_cancel, ← hgen.G]
      exact displayByte_shows_grid (evolveBody_display _) (iteration_powerUps x) hi

/-! ## Progress -/

/-- An operation that one engine step completes. -/
theorem run_one_completes (hin : s.inputs = []) (ht : engineStep s = .next t) (hb : t.busy = false) :
    ∃ n t, n ≤ 65535 ∧ core.run n s = .next t ∧ t.busy = false :=
  ⟨1, t, by decide, (run_next ((step_nil hin).trans ht)).trans (run_zero t), hb⟩

/-- Settles O38: an operation other than RUN, and a RUN with a STOP, take one step; a bounded run takes as
many as it has iterations left, which is a 16-bit number. -/
theorem pendingOperationsComplete : Obligations.PendingOperationsComplete := by
  intro s h hin hrun
  cases hb : s.busy with
  | false => exact ⟨0, s, by decide, run_zero s, hb⟩
  | true =>
    have hop : s.op ≠ .none := fun hnone => by simp [h.busyOp.2 hnone] at hb
    by_cases ho : s.op = .run
    · cases hs : s.stopPend with
      | true =>
        have hstep := engineStep_run hb ho
        rw [performRunStep_stop hs] at hstep
        exact run_one_completes hin hstep rfl
      | false =>
        have hr := h.runningOp.2 ho
        have hinf : s.runInf = false := (hrun ho).resolve_right (by simp [hs])
        obtain ⟨k, hk⟩ := Nat.exists_eq_add_of_le' (h.runLeft hr hinf)
        obtain ⟨t, _, _, hend⟩ :=
          run_bounded_ends (k := k) ⟨⟨hin, hb, hr, ho, hs⟩, hinf, hk⟩ (generations_zero s)
        exact ⟨k + 1, _, by have := s.runLeft.isLt; omega, hend, rfl⟩
    · obtain ⟨t, ht, _, hover, _⟩ := engineStep_of_pending hb hop
      exact run_one_completes hin ht (hover ho).2

end Sys2Proof.Machine
end

section
/-! The reference FSM of the Evolver (43_evolver.md R209): it visits the interior cells in row-major order,
nine cycles for each in the count phase and one in the apply phase, and so performs the atomic EVOLVE. -/

namespace Sys2Proof.Machine

open Sys2Proof.Config

variable {s : State} {i n : Nat}

/-! ## The interior cells in order -/

/-- The `n`-th interior cell, counting from 0; the one after the last lies in the last row. -/
def interiorCell (n : Nat) : Nat := idx (1 + n / (W - 2)) (1 + n % (W - 2))

theorem interiorCell_mem (hn : n < NI) : interiorCell n < N ∧ interior (interiorCell n) = true :=
  interior_idx_of_draw hn

theorem nextInterior_interiorCell (n : Nat) : nextInterior (interiorCell n) = interiorCell (n + 1) := by
  have hc : 1 + n % 78 < W := by simp only [W]; omega
  have hcol : col (interiorCell n) = 1 + n % 78 := col_idx hc
  have hrow : row (interiorCell n) = 1 + n / 78 := row_idx hc
  rw [nextInterior, hcol, hrow]
  simp only [interiorCell, idx, W]
  split_ifs <;> omega

theorem lastInterior_lt_interiorCell (n : Nat) : lastInterior < interiorCell n ↔ NI ≤ n := by
  simp only [lastInterior, interiorCell, idx, W, H, NI]
  omega

theorem interiorCell_injective : Function.Injective interiorCell := by
  intro m n h
  simp only [interiorCell, idx, W] at h
  omega

theorem exists_interiorCell (hi : i < N) (hint : interior i = true) : ∃ n, n < NI ∧ interiorCell n = i := by
  obtain ⟨⟨hr1, hr⟩, hc1, hc⟩ := (interior_iff hi).1 hint
  have hidx : col i + row i * 80 = i := idx_row_col i
  refine ⟨(row i - 1) * 78 + (col i - 1), ?_, ?_⟩ <;>
    simp only [interiorCell, idx, W, H, NI] at * <;> omega

/-- The first `n` interior cells. -/
def interiorCells (n : Nat) : List Nat := (List.range n).map interiorCell

theorem foldl_interiorCells_succ (f : State → Nat → State) (s : State) (n : Nat) :
    (interiorCells (n + 1)).foldl f s = f ((interiorCells n).foldl f s) (interiorCell n) := by
  simp [interiorCells, List.range_succ]

theorem interiorCells_lt : ∀ i ∈ interiorCells NI, i < N := by
  intro i hi
  obtain ⟨n, hn, rfl⟩ := List.mem_map.1 hi
  exact (interiorCell_mem (List.mem_range.1 hn)).1

theorem interiorCells_nodup (n : Nat) : (interiorCells n).Nodup :=
  List.nodup_range.map interiorCell_injective

theorem mem_interiorCells (i : Nat) (hi : i < N) (hint : interior i = true) : i ∈ interiorCells NI := by
  obtain ⟨n, hn, rfl⟩ := exists_interiorCell hi hint
  exact List.mem_map_of_mem (List.mem_range.2 hn)

/-! ## Cycles -/

theorem fsmRun_zero (fs : Fsm × State) : fsmRun 0 fs = fs := by
  unfold fsmRun; rfl

theorem fsmRun_one (fs : Fsm × State) : fsmRun 1 fs = fsmStep fs := by
  unfold fsmRun; rfl

theorem fsmRun_add (m n : Nat) (fs : Fsm × State) : fsmRun (m + n) fs = fsmRun n (fsmRun m fs) := by
  unfold fsmRun
  rw [Nat.add_comm, Function.iterate_add_apply]

theorem fsmRun_succ (n : Nat) (fs : Fsm × State) : fsmRun (n + 1) fs = fsmStep (fsmRun n fs) := by
  rw [fsmRun_add, fsmRun_one]

section

variable (i k : Nat) (acc : Count) (s : State)

theorem fsmStep_cntStart : fsmStep (⟨.cntStart, i, k, acc⟩, s) = (⟨.cntAcc, firstInterior, 0, 0#4⟩, s) :=
  rfl

theorem fsmStep_cntAcc :
    fsmStep (⟨.cntAcc, i, k, acc⟩, s) =
      (⟨if k + 1 < 8 then .cntAcc else .cntStore, i, k + 1,
        if cell s.G (fsmReadIndex i k) = ALIVE then acc + 1#4 else acc⟩, s) :=
  rfl

theorem fsmStep_cntStore :
    fsmStep (⟨.cntStore, i, k, acc⟩, s) =
      (⟨if lastInterior < nextInterior i then .aplStart else .cntAcc, nextInterior i, 0, 0#4⟩,
        setCount i acc s) :=
  rfl

theorem fsmStep_aplStart : fsmStep (⟨.aplStart, i, k, acc⟩, s) = (⟨.apl, firstInterior, k, acc⟩, s) :=
  rfl

theorem fsmStep_apl :
    fsmStep (⟨.apl, i, k, acc⟩, s) =
      (⟨if lastInterior < nextInterior i then .done else .apl, nextInterior i, k, acc⟩,
        setCell i (rule (cell s.G i) (count s.C i).toNat) s) :=
  rfl

theorem fsmStep_done :
    fsmStep (⟨.done, i, k, acc⟩, s) = (⟨.idle, i, k, acc⟩, finishOp (bumpGenCount s)) :=
  rfl

end

/-! ## The count phase -/

/-- How many of the first `k` neighbours of cell `i` are ALIVE. -/
def aliveAmongFirst (g : Grid) (i k : Nat) : Nat :=
  (neighbourOffsets.take k).countP fun n => cell g ((i : Int) + n).toNat == ALIVE

theorem aliveAmongFirst_succ (g : Grid) {k : Nat} (hk : k < 8) :
    aliveAmongFirst g i (k + 1) =
      aliveAmongFirst g i k + if cell g (fsmReadIndex i k) = ALIVE then 1 else 0 := by
  have hk' : k < neighbourOffsets.length := hk
  rw [aliveAmongFirst, List.take_succ_eq_append_getElem hk', List.countP_append, List.countP_singleton]
  simp [aliveAmongFirst, fsmReadIndex, hk']

theorem aliveAmongFirst_eight (g : Grid) (hi : i < N) (hint : interior i = true) :
    aliveAmongFirst g i 8 = ncount g i := by
  rw [ncount, neighbours_eq_map_offsets hi hint, List.countP_map]
  rfl

/-- The accumulator after `k` of the eight cycles of a cell (R203). -/
theorem fsmRun_cntAcc (s : State) (i : Nat) {k : Nat} (hk : k ≤ 8) :
    fsmRun k (⟨.cntAcc, i, 0, 0#4⟩, s) =
      (⟨if k < 8 then .cntAcc else .cntStore, i, k, BitVec.ofNat 4 (aliveAmongFirst s.G i k)⟩, s) := by
  induction k with
  | zero => exact fsmRun_zero _
  | succ k ih =>
    have hk' : k < 8 := hk
    rw [fsmRun_succ, ih (Nat.le_of_lt hk'), if_pos hk', fsmStep_cntAcc, aliveAmongFirst_succ s.G hk']
    split_ifs <;> simp [BitVec.ofNat_add]

/-- Nine cycles count one cell (R209). -/
theorem fsmRun_countCell (s : State) (hn : n < NI) :
    fsmRun 9 (⟨.cntAcc, interiorCell n, 0, 0#4⟩, s) =
      (⟨if n + 1 < NI then .cntAcc else .aplStart, interiorCell (n + 1), 0, 0#4⟩,
        countCell s (interiorCell n)) := by
  obtain ⟨hlt, hint⟩ := interiorCell_mem hn
  rw [fsmRun_succ 8, fsmRun_cntAcc s _ (Nat.le_refl 8), if_neg (Nat.lt_irrefl 8), fsmStep_cntStore,
    nextInterior_interiorCell, aliveAmongFirst_eight s.G hlt hint, countCell, if_pos hint]
  simp only [lastInterior_lt_interiorCell, ← Nat.not_lt, ite_not]

theorem fsmRun_countCells (s : State) (hn : n ≤ NI) :
    fsmRun (9 * n) (⟨.cntAcc, firstInterior, 0, 0#4⟩, s) =
      (⟨if n < NI then .cntAcc else .aplStart, interiorCell n, 0, 0#4⟩,
        (interiorCells n).foldl countCell s) := by
  induction n with
  | zero => exact fsmRun_zero _
  | succ n ih =>
    have hn' : n < NI := hn
    rw [Nat.mul_succ, fsmRun_add, ih (Nat.le_of_lt hn'), if_pos hn', fsmRun_countCell _ hn',
      foldl_interiorCells_succ]

/-! ## The apply phase -/

/-- One cycle applies the rule to one cell (R209). -/
theorem fsmStep_applyCell (s : State) (hn : n < NI) :
    fsmStep (⟨.apl, interiorCell n, 0, 0#4⟩, s) =
      (⟨if n + 1 < NI then .apl else .done, interiorCell (n + 1), 0, 0#4⟩,
        applyCell s (interiorCell n)) := by
  rw [fsmStep_apl, nextInterior_interiorCell, applyCell, if_pos (interiorCell_mem hn).2]
  simp only [lastInterior_lt_interiorCell, ← Nat.not_lt, ite_not]

theorem fsmRun_applyCells (s : State) (hn : n ≤ NI) :
    fsmRun n (⟨.apl, firstInterior, 0, 0#4⟩, s) =
      (⟨if n < NI then .apl else .done, interiorCell n, 0, 0#4⟩, (interiorCells n).foldl applyCell s) := by
  induction n with
  | zero => exact fsmRun_zero _
  | succ n ih =>
    have hn' : n < NI := hn
    rw [fsmRun_succ, ih (Nat.le_of_lt hn'), if_pos hn', fsmStep_applyCell _ hn', foldl_interiorCells_succ]

/-! ## The whole EVOLVE -/

/-- The count phase of the FSM is that of the atomic step (R210). -/
theorem fsmRun_countPhase (s : State) :
    fsmRun (9 * NI) (⟨.cntAcc, firstInterior, 0, 0#4⟩, s) =
      (⟨.aplStart, interiorCell NI, 0, 0#4⟩, countPhase s) := by
  rw [fsmRun_countCells s (Nat.le_refl NI), if_neg (Nat.lt_irrefl NI),
    countFold_eq_countPhase interiorCells_lt mem_interiorCells]

/-- The apply phase of the FSM is that of the atomic step (R210). -/
theorem fsmRun_applyPhase (s : State) :
    fsmRun NI (⟨.apl, firstInterior, 0, 0#4⟩, s) = (⟨.done, interiorCell NI, 0, 0#4⟩, applyPhase s) := by
  rw [fsmRun_applyCells s (Nat.le_refl NI), if_neg (Nat.lt_irrefl NI),
    applyFold_eq_applyPhase interiorCells_lt (interiorCells_nodup NI) mem_interiorCells]

/-- Settles O28: one cycle to start, nine per interior cell to count, one to turn, one per interior cell to
apply, and one to finish. -/
theorem referenceFsmPerformsTheAtomicEvolve : Obligations.ReferenceFsmPerformsTheAtomicEvolve := by
  intro s f hb ho hf
  obtain ⟨phase, i, k, acc⟩ := f
  obtain rfl : phase = .cntStart := hf
  refine ⟨_, ⟨.idle, interiorCell NI, 0, 0#4⟩, engineStep_evolve hb ho, ?_, rfl⟩
  rw [performEvolve, evolveBody, show 17943 = 1 + (9 * NI + (1 + (NI + 1))) by decide]
  rw [fsmRun_add, fsmRun_one, fsmStep_cntStart, fsmRun_add, fsmRun_countPhase, fsmRun_add, fsmRun_one,
    fsmStep_aplStart, fsmRun_add, fsmRun_applyPhase, fsmRun_one, fsmStep_done]

end Sys2Proof.Machine
end
